-- ==== Sys2Proof/Word.lean ====
section
/-! DEFINITION. Word types and their plainest arithmetic (R3 to R5). -/

namespace Sys2Proof

abbrev Byte := BitVec 8
/-- A 32-bit register or instruction word. -/
abbrev Word := BitVec 32
/-- A lane mask: bit i stands for lane i (R5). -/
abbrev Mask := BitVec 32

/-- The lanes of a gang, lowest first (R23). -/
abbrev lanes : List Nat := List.range 32

end Sys2Proof
end

