-- ==== Sys2Proof/Syntax.lean ====
section
/-! DEFINITION. The syntax: one constructor per row of the opcode table. The rows with an encoding are
instructions; the rows without bits are the steps the device, the host and the peers take, whose operands
name the thing that moves and what comes in from outside. -/

namespace Sys2Proof

/-- A register field: v0 to v63, or s0 to s63 (R76). -/
abbrev Reg := BitVec 6
/-- A predicate register k0 to k7 (R76). -/
abbrev KReg := BitVec 3
/-- A capability register c0 to c15, an accumulator bank or a quad number over 4 (R76). -/
abbrev CReg := BitVec 4
/-- A tile register t0 to t7 (R76). -/
abbrev TReg := BitVec 3

/-- The modifier prefix PFX (R77). The reserved bit [8] and the opcode are checked by the decoder. -/
structure Prefix where
  predicate : KReg
  negate    : Bool
  kind      : BitVec 2
  modA      : BitVec 2
  amtA      : BitVec 5
  modB      : BitVec 2
  amtB      : BitVec 5
  scope     : BitVec 3
  deriving DecidableEq, Repr

/-- What the ECC of HBM and of the shared cache finds at a read (R211 to R213). -/
inductive MemErr where
  | none
  | corrected
  | uncorrectable
  deriving DecidableEq, Repr

/-- A message that arrives from the peer on a fabric port (R339, R345). -/
structure PeerMessage where
  port    : Nat
  sender  : Nat
  dest    : Nat
  handler : Nat
  payload : List Word
  deriving DecidableEq, Repr

/-- One byte the host holds at an address of its window (R202). -/
abbrev HostCell := Nat × Byte

/-- What the host's translation agent answers (R203, R204; cause 19 for a read-only page, cause 21 for an error, R367). -/
inductive AtsResult where
  | translated
  | readOnly
  | notPresent
  | error
  deriving DecidableEq, Repr

/-- What a peer device presents when a fabric port comes up (R412): its identity, whether its report verifies, its
MEASUREMENTS entries by partition, its encapsulation key, and the ciphertext that it sends where it is the lower device (R414). -/
structure PeerReport where
  identity     : BitVec 512
  verified     : Bool
  measurements : List (Nat × BitVec 512)
  kemKey       : List Byte
  ciphertext   : List Byte
  deriving DecidableEq, Repr

/-- One measured energy component of a window (R396): its energy in units of 2^-32 microjoules, and the use of it by work that is no
partition's (the sweeper, scrubs, the background read, signing). -/
structure Component where
  energy : Nat
  device : Nat
  deriving DecidableEq, Repr

/-- The energy measured over one reconciliation window, by component in the order of R396's table (R396, R397). -/
structure Measurement where
  components : List Component
  deriving DecidableEq, Repr

/-- The operations and steps of the part: one constructor per row of the opcode table. -/
inductive Instr where
  /-- IADD (R112): Adds two lane registers modulo 2^32 in each live lane. -/
  | iadd (pb pa : Bool) (b a d : Reg)
  /-- ISUB (R112): Subtracts vb from va modulo 2^32. -/
  | isub (pb pa : Bool) (b a d : Reg)
  /-- IMUL (R112): Writes the low 32 bits of the product. -/
  | imul (pb pa : Bool) (b a d : Reg)
  /-- IMULH_I32 (R112): Writes the high 32 bits of the signed product. -/
  | imulhI32 (pb pa : Bool) (b a d : Reg)
  /-- IMULH_N32 (R112): Writes the high 32 bits of the natural product. -/
  | imulhN32 (pb pa : Bool) (b a d : Reg)
  /-- IMIN_I32 (R112): Writes the signed minimum. -/
  | iminI32 (pb pa : Bool) (b a d : Reg)
  /-- IMIN_N32 (R112): Writes the natural minimum. -/
  | iminN32 (pb pa : Bool) (b a d : Reg)
  /-- IMAX_I32 (R112): Writes the signed maximum. -/
  | imaxI32 (pb pa : Bool) (b a d : Reg)
  /-- IMAX_N32 (R112): Writes the natural maximum. -/
  | imaxN32 (pb pa : Bool) (b a d : Reg)
  /-- IABS_I32 (R112): Writes the absolute value of va, with 0x8000_0000 unchanged. -/
  | iabsI32 (pa : Bool) (a d : Reg)
  /-- IADDS_I32 (R112): Signed saturating add. -/
  | iaddsI32 (pb pa : Bool) (b a d : Reg)
  /-- ISUBS_I32 (R112): Signed saturating subtract. -/
  | isubsI32 (pb pa : Bool) (b a d : Reg)
  /-- IADDS_N32 (R112): Natural saturating add. -/
  | iaddsN32 (pb pa : Bool) (b a d : Reg)
  /-- ISUBS_N32 (R112): Natural saturating subtract. -/
  | isubsN32 (pb pa : Bool) (b a d : Reg)
  /-- AND (R113): Bitwise AND. -/
  | and_ (pb pa : Bool) (b a d : Reg)
  /-- OR (R113): Bitwise OR. -/
  | or_ (pb pa : Bool) (b a d : Reg)
  /-- XOR (R113): Bitwise XOR. -/
  | xor_ (pb pa : Bool) (b a d : Reg)
  /-- ANDN (R113): va AND NOT vb. -/
  | andn (pb pa : Bool) (b a d : Reg)
  /-- SHL (R113): Shifts left by the whole of vb, giving 0 at 32 or more. -/
  | shl (pb pa : Bool) (b a d : Reg)
  /-- SHR (R113): Logical shift right by vb. -/
  | shr (pb pa : Bool) (b a d : Reg)
  /-- SAR (R113): Arithmetic shift right by vb. -/
  | sar (pb pa : Bool) (b a d : Reg)
  /-- ROL (R113): Rotates left by vb[4:0]. -/
  | rol (pb pa : Bool) (b a d : Reg)
  /-- POPC (R113): Counts the 1 bits of va. -/
  | popc (pa : Bool) (a d : Reg)
  /-- CLZ (R113): Counts the leading zeros of va. -/
  | clz (pa : Bool) (a d : Reg)
  /-- BREV (R113): Reverses the bits of va. -/
  | brev (pa : Bool) (a d : Reg)
  /-- ICMP_EQ (R115): Sets kd where a = b. -/
  | icmpEq (pb pa : Bool) (b a : Reg) (d : KReg)
  /-- ICMP_NE (R115): Sets kd where a differs from b. -/
  | icmpNe (pb pa : Bool) (b a : Reg) (d : KReg)
  /-- ICMP_LT_I32 (R115): Signed less-than compare into kd. -/
  | icmpLtI32 (pb pa : Bool) (b a : Reg) (d : KReg)
  /-- ICMP_LE_I32 (R115): Signed less-or-equal compare into kd. -/
  | icmpLeI32 (pb pa : Bool) (b a : Reg) (d : KReg)
  /-- ICMP_LT_N32 (R115): Natural less-than compare into kd. -/
  | icmpLtN32 (pb pa : Bool) (b a : Reg) (d : KReg)
  /-- ICMP_LE_N32 (R115): Natural less-or-equal compare into kd. -/
  | icmpLeN32 (pb pa : Bool) (b a : Reg) (d : KReg)
  /-- FCMP_EQ (R141): FP32 equal compare into kd, false with a NaN. -/
  | fcmpEq (pb pa : Bool) (b a : Reg) (d : KReg)
  /-- FCMP_NE (R141): FP32 not-equal compare into kd, true with a NaN. -/
  | fcmpNe (pb pa : Bool) (b a : Reg) (d : KReg)
  /-- FCMP_LT (R141): FP32 less-than compare into kd. -/
  | fcmpLt (pb pa : Bool) (b a : Reg) (d : KReg)
  /-- FCMP_LE (R141): FP32 less-or-equal compare into kd. -/
  | fcmpLe (pb pa : Bool) (b a : Reg) (d : KReg)
  /-- FCMP_UN (R141): Sets kd where either operand is a NaN. -/
  | fcmpUn (pb pa : Bool) (b a : Reg) (d : KReg)
  /-- SEL (R116): Selects va where kp holds, else vb. -/
  | sel (p : KReg) (pb pa : Bool) (b a d : Reg)
  /-- SEL_N (R116): Selects va where kp is false, else vb. -/
  | selN (p : KReg) (pb pa : Bool) (b a d : Reg)
  /-- IMAD (R117): Writes the low 32 bits of a × b + c. -/
  | imad (c b a d : Reg)
  /-- BFI (R118): Inserts a bitfield of va into vb under the control word in vc. -/
  | bfi (c b a d : Reg)
  /-- BFE_N32 (R118): Extracts a zero-extended bitfield. -/
  | bfeN32 (b a d : Reg)
  /-- BFE_I32 (R118): Extracts a sign-extended bitfield. -/
  | bfeI32 (b a d : Reg)
  /-- IADD_I64 (R119): 64-bit add of register pairs. -/
  | iaddI64 (pb pa : Bool) (b a d : Reg)
  /-- ISUB_I64 (R119): 64-bit subtract of register pairs. -/
  | isubI64 (pb pa : Bool) (b a d : Reg)
  /-- SHL_I64 (R119): Shifts a pair left by a single-register count. -/
  | shlI64 (pb pa : Bool) (b a d : Reg)
  /-- SHR_N64 (R119): Logical 64-bit right shift of a pair. -/
  | shrN64 (pb pa : Bool) (b a d : Reg)
  /-- SAR_I64 (R119): Arithmetic 64-bit right shift of a pair. -/
  | sarI64 (pb pa : Bool) (b a d : Reg)
  /-- IMULW_I32 (R119): Exact signed 64-bit product into a pair. -/
  | imulwI32 (pb pa : Bool) (b a d : Reg)
  /-- IMULW_N32 (R119): Exact natural 64-bit product into a pair. -/
  | imulwN32 (pb pa : Bool) (b a d : Reg)
  /-- IMIN_I64 (R119): Signed 64-bit minimum of pairs. -/
  | iminI64 (pb pa : Bool) (b a d : Reg)
  /-- IMAX_I64 (R119): Signed 64-bit maximum of pairs. -/
  | imaxI64 (pb pa : Bool) (b a d : Reg)
  /-- IADDI (R120): Adds a sign-extended imm11. -/
  | iaddi (imm : BitVec 11) (pa : Bool) (a d : Reg)
  /-- ANDI (R120): ANDs with a sign-extended imm11. -/
  | andi (imm : BitVec 11) (pa : Bool) (a d : Reg)
  /-- ORI (R120): ORs with a sign-extended imm11. -/
  | ori (imm : BitVec 11) (pa : Bool) (a d : Reg)
  /-- XORI (R120): XORs with a sign-extended imm11. -/
  | xori (imm : BitVec 11) (pa : Bool) (a d : Reg)
  /-- SHLI (R114): Shifts left by an immediate 0–31. -/
  | shli (n : BitVec 5) (pa : Bool) (a d : Reg)
  /-- SHRI (R114): Logical shift right by an immediate 0–31. -/
  | shri (n : BitVec 5) (pa : Bool) (a d : Reg)
  /-- SARI (R114): Arithmetic shift right by an immediate 0–31. -/
  | sari (n : BitVec 5) (pa : Bool) (a d : Reg)
  /-- MOVI (R120): Writes a sign-extended imm11. -/
  | movi (imm : BitVec 11) (d : Reg)
  /-- SLOI (R120): Shifts va left by 11 and ORs in an unsigned imm11. -/
  | sloi (imm : BitVec 11) (pa : Bool) (a d : Reg)
  /-- IMULI (R120): Multiplies by a sign-extended imm11. -/
  | imuli (imm : BitVec 11) (pa : Bool) (a d : Reg)
  /-- MOV (R122): Copies va as data, clearing the quad tag. -/
  | mov (pa : Bool) (a d : Reg)
  /-- SEXT_I8 (R122): Sign-extends the low byte. -/
  | sextI8 (pa : Bool) (a d : Reg)
  /-- SEXT_I16 (R122): Sign-extends the low half. -/
  | sextI16 (pa : Bool) (a d : Reg)
  /-- ZEXT_N8 (R122): Zero-extends the low byte. -/
  | zextN8 (pa : Bool) (a d : Reg)
  /-- ZEXT_N16 (R122): Zero-extends the low half. -/
  | zextN16 (pa : Bool) (a d : Reg)
  /-- FADD (R137): FP32 add rounded by KIND. -/
  | fadd (pb pa : Bool) (b a d : Reg)
  /-- FSUB (R137): FP32 subtract rounded by KIND. -/
  | fsub (pb pa : Bool) (b a d : Reg)
  /-- FMUL (R137): FP32 multiply rounded by KIND. -/
  | fmul (pb pa : Bool) (b a d : Reg)
  /-- FMIN (R138): FP32 minimum, ignoring a single NaN. -/
  | fmin (pb pa : Bool) (b a d : Reg)
  /-- FMAX (R138): FP32 maximum, ignoring a single NaN. -/
  | fmax (pb pa : Bool) (b a d : Reg)
  /-- FDIV (R137): FP32 divide, correctly rounded. -/
  | fdiv (pb pa : Bool) (b a d : Reg)
  /-- FABS (R138): Clears bit 31. -/
  | fabs (pa : Bool) (a d : Reg)
  /-- FNEG (R138): Inverts bit 31. -/
  | fneg (pa : Bool) (a d : Reg)
  /-- FSQRT (R137): FP32 square root, correctly rounded. -/
  | fsqrt (pa : Bool) (a d : Reg)
  /-- FRCP (R139): Reciprocal within 1 ulp. -/
  | frcp (pa : Bool) (a d : Reg)
  /-- FRSQ (R139): Reciprocal square root within 1 ulp. -/
  | frsq (pa : Bool) (a d : Reg)
  /-- FEXP2 (R139): 2^a within 2 ulp. -/
  | fexp2 (pa : Bool) (a d : Reg)
  /-- FLOG2 (R139): log2 a to the stated accuracy. -/
  | flog2 (pa : Bool) (a d : Reg)
  /-- FSIN (R139): sin(π a) within 2^-22. -/
  | fsin (pa : Bool) (a d : Reg)
  /-- FCOS (R139): cos(π a) within 2^-22. -/
  | fcos (pa : Bool) (a d : Reg)
  /-- FMA_F32 (R140): Fused a × b + c with one rounding. -/
  | fmaF32 (c b a d : Reg)
  /-- HADD_F16 (R142): Packed FP16 add per half. -/
  | haddF16 (pb pa : Bool) (b a d : Reg)
  /-- HSUB_F16 (R142): Packed FP16 subtract. -/
  | hsubF16 (pb pa : Bool) (b a d : Reg)
  /-- HMUL_F16 (R142): Packed FP16 multiply. -/
  | hmulF16 (pb pa : Bool) (b a d : Reg)
  /-- HMIN_F16 (R142): Packed FP16 minimum. -/
  | hminF16 (pb pa : Bool) (b a d : Reg)
  /-- HMAX_F16 (R142): Packed FP16 maximum. -/
  | hmaxF16 (pb pa : Bool) (b a d : Reg)
  /-- HADD_BF16 (R142): Packed BF16 add. -/
  | haddBf16 (pb pa : Bool) (b a d : Reg)
  /-- HSUB_BF16 (R142): Packed BF16 subtract. -/
  | hsubBf16 (pb pa : Bool) (b a d : Reg)
  /-- HMUL_BF16 (R142): Packed BF16 multiply. -/
  | hmulBf16 (pb pa : Bool) (b a d : Reg)
  /-- HMIN_BF16 (R142): Packed BF16 minimum. -/
  | hminBf16 (pb pa : Bool) (b a d : Reg)
  /-- HMAX_BF16 (R142): Packed BF16 maximum. -/
  | hmaxBf16 (pb pa : Bool) (b a d : Reg)
  /-- HFMA_F16 (R143): Packed FP16 fused multiply-add. -/
  | hfmaF16 (c b a d : Reg)
  /-- HFMA_BF16 (R143): Packed BF16 fused multiply-add. -/
  | hfmaBf16 (c b a d : Reg)
  /-- CVT_F32_I32 (R144): Signed integer to FP32. -/
  | cvtF32I32 (pa : Bool) (a d : Reg)
  /-- CVT_F32_N32 (R144): Natural integer to FP32. -/
  | cvtF32N32 (pa : Bool) (a d : Reg)
  /-- CVT_I32_F32 (R145): FP32 to a clamped signed integer. -/
  | cvtI32F32 (pa : Bool) (a d : Reg)
  /-- CVT_N32_F32 (R145): FP32 to a clamped natural integer. -/
  | cvtN32F32 (pa : Bool) (a d : Reg)
  /-- CVT_F16_F32 (R144): FP32 to FP16 in the low half. -/
  | cvtF16F32 (pa : Bool) (a d : Reg)
  /-- CVT_BF16_F32 (R144): FP32 to BF16 in the low half. -/
  | cvtBf16F32 (pa : Bool) (a d : Reg)
  /-- CVT_F32_F16 (R144): FP16 to FP32, exactly. -/
  | cvtF32F16 (pa : Bool) (a d : Reg)
  /-- CVT_F32_BF16 (R144): BF16 to FP32, exactly. -/
  | cvtF32Bf16 (pa : Bool) (a d : Reg)
  /-- FRND (R144): Rounds to an integral FP32 by KIND. -/
  | frnd (pa : Bool) (a d : Reg)
  /-- QUANT_SB7 (R146): Collectively quantises two 16-lane blocks to SB7. -/
  | quantSb7 (pa : Bool) (a d : Reg)
  /-- QUANT_SB4 (R146): Collectively quantises two 16-lane blocks to SB4. -/
  | quantSb4 (pa : Bool) (a d : Reg)
  /-- QUANT_SB2 (R146): Collectively quantises two 16-lane blocks to SB2. -/
  | quantSb2 (pa : Bool) (a d : Reg)
  /-- DEQ_SB7 (R147): Dequantises one SB7 element to FP32. -/
  | deqSb7 (pb pa : Bool) (b a d : Reg)
  /-- DEQ_SB4 (R147): Dequantises one SB4 element to FP32. -/
  | deqSb4 (pb pa : Bool) (b a d : Reg)
  /-- DEQ_SB2 (R147): Dequantises one SB2 element to FP32. -/
  | deqSb2 (pb pa : Bool) (b a d : Reg)
  /-- KAND (R149): kd := ka AND kb in active lanes. -/
  | kand (kb ka kd : KReg)
  /-- KOR (R149): kd := ka OR kb. -/
  | kor (kb ka kd : KReg)
  /-- KXOR (R149): kd := ka XOR kb. -/
  | kxor (kb ka kd : KReg)
  /-- KANDN (R149): kd := ka AND NOT kb. -/
  | kandn (kb ka kd : KReg)
  /-- KNOT (R149): kd := NOT ka. -/
  | knot (ka kd : KReg)
  /-- LSEL (R151): Collectively reads va from the lane numbered by vb. -/
  | lsel (pb pa : Bool) (b a d : Reg)
  /-- LSTEP (R151): Reads va from lane id + vb, without wrapping. -/
  | lstep (pb pa : Bool) (b a d : Reg)
  /-- LSTEP_W (R151): Reads va from lane id + vb, wrapping within the group. -/
  | lstepW (pb pa : Bool) (b a d : Reg)
  /-- LMIRROR (R151): Reads va from lane id XOR vb. -/
  | lmirror (pb pa : Bool) (b a d : Reg)
  /-- KMASK (R152): Writes the mask of active lanes where ka holds. -/
  | kmask (a : KReg) (d : Reg)
  /-- KCOUNT (R152): Writes the count of active lanes where ka holds. -/
  | kcount (a : KReg) (d : Reg)
  /-- KRANK (R152): Writes the number of such lanes below the receiving lane. -/
  | krank (a : KReg) (d : Reg)
  /-- LKIN (R153): Writes the leader and count of lanes sharing va's pattern. -/
  | lkin (pa : Bool) (a d : Reg)
  /-- LFOLD_ADD (R154): Folds va by addition over active lanes into an s register. -/
  | lfoldAdd (pa : Bool) (a d : Reg)
  /-- LFOLD_MIN_I32 (R154): Folds to the signed minimum. -/
  | lfoldMinI32 (pa : Bool) (a d : Reg)
  /-- LFOLD_MAX_I32 (R154): Folds to the signed maximum. -/
  | lfoldMaxI32 (pa : Bool) (a d : Reg)
  /-- LFOLD_AND (R154): Folds by AND. -/
  | lfoldAnd (pa : Bool) (a d : Reg)
  /-- LFOLD_OR (R154): Folds by OR. -/
  | lfoldOr (pa : Bool) (a d : Reg)
  /-- LFOLD_XOR (R154): Folds by XOR. -/
  | lfoldXor (pa : Bool) (a d : Reg)
  /-- LFOLD_MIN_N32 (R154): Folds to the natural minimum. -/
  | lfoldMinN32 (pa : Bool) (a d : Reg)
  /-- LFOLD_MAX_N32 (R154): Folds to the natural maximum. -/
  | lfoldMaxN32 (pa : Bool) (a d : Reg)
  /-- EXIT (R159): Exits every active lane once its outstanding checks are settled. -/
  | exit_
  /-- YIELD (R160): Holds the split until other ready splits have issued or 64 clk pass. -/
  | yield
  /-- JMPR (R157): Jumps each lane to its register target, grouping lanes into splits. -/
  | jmpr (a : Reg)
  /-- JOIN (R36): Fuses with a sibling, pops, swaps or holds up to n clk. -/
  | join (n : BitVec 8)
  /-- BRT (R155): Branches the lanes where k is true, diverging by R32. -/
  | brt (disp : BitVec 21) (k : KReg)
  /-- BRF (R155): Branches the lanes where k is false. -/
  | brf (disp : BitVec 21) (k : KReg)
  /-- CALL (R156): Writes the return offset to v7 and jumps in every active lane. -/
  | call (disp : BitVec 21)
  /-- SIADD (R124): Uniform add, once per issue. -/
  | siadd (pb pa : Bool) (b a d : Reg)
  /-- SISUB (R124): Uniform subtract. -/
  | sisub (pb pa : Bool) (b a d : Reg)
  /-- SIMUL (R124): Uniform low multiply. -/
  | simul (pb pa : Bool) (b a d : Reg)
  /-- SIMULH_I32 (R124): Uniform signed high multiply. -/
  | simulhI32 (pb pa : Bool) (b a d : Reg)
  /-- SIMULH_N32 (R124): Uniform natural high multiply. -/
  | simulhN32 (pb pa : Bool) (b a d : Reg)
  /-- SIMIN_I32 (R124): Uniform signed minimum. -/
  | siminI32 (pb pa : Bool) (b a d : Reg)
  /-- SIMIN_N32 (R124): Uniform natural minimum. -/
  | siminN32 (pb pa : Bool) (b a d : Reg)
  /-- SIMAX_I32 (R124): Uniform signed maximum. -/
  | simaxI32 (pb pa : Bool) (b a d : Reg)
  /-- SIMAX_N32 (R124): Uniform natural maximum. -/
  | simaxN32 (pb pa : Bool) (b a d : Reg)
  /-- SIABS_I32 (R124): Uniform absolute value. -/
  | siabsI32 (pa : Bool) (a d : Reg)
  /-- SIADDS_I32 (R124): Uniform signed saturating add. -/
  | siaddsI32 (pb pa : Bool) (b a d : Reg)
  /-- SISUBS_I32 (R124): Uniform signed saturating subtract. -/
  | sisubsI32 (pb pa : Bool) (b a d : Reg)
  /-- SIADDS_N32 (R124): Uniform natural saturating add. -/
  | siaddsN32 (pb pa : Bool) (b a d : Reg)
  /-- SISUBS_N32 (R124): Uniform natural saturating subtract. -/
  | sisubsN32 (pb pa : Bool) (b a d : Reg)
  /-- SAND (R124): Uniform AND. -/
  | sand (pb pa : Bool) (b a d : Reg)
  /-- SOR (R124): Uniform OR. -/
  | sor (pb pa : Bool) (b a d : Reg)
  /-- SXOR (R124): Uniform XOR. -/
  | sxor (pb pa : Bool) (b a d : Reg)
  /-- SANDN (R124): Uniform AND NOT. -/
  | sandn (pb pa : Bool) (b a d : Reg)
  /-- SSHL (R124): Uniform shift left. -/
  | sshl (pb pa : Bool) (b a d : Reg)
  /-- SSHR (R124): Uniform logical shift right. -/
  | sshr (pb pa : Bool) (b a d : Reg)
  /-- SSAR (R124): Uniform arithmetic shift right. -/
  | ssar (pb pa : Bool) (b a d : Reg)
  /-- SROL (R124): Uniform rotate left. -/
  | srol (pb pa : Bool) (b a d : Reg)
  /-- SPOPC (R124): Uniform population count. -/
  | spopc (pa : Bool) (a d : Reg)
  /-- SCLZ (R124): Uniform leading-zero count. -/
  | sclz (pa : Bool) (a d : Reg)
  /-- SBREV (R124): Uniform bit reverse. -/
  | sbrev (pa : Bool) (a d : Reg)
  /-- SCMP_EQ (R124): Uniform equal compare, writing 1 or 0. -/
  | scmpEq (pb pa : Bool) (b a d : Reg)
  /-- SCMP_NE (R124): Uniform not-equal compare. -/
  | scmpNe (pb pa : Bool) (b a d : Reg)
  /-- SCMP_LT_I32 (R124): Uniform signed less-than. -/
  | scmpLtI32 (pb pa : Bool) (b a d : Reg)
  /-- SCMP_LE_I32 (R124): Uniform signed less-or-equal. -/
  | scmpLeI32 (pb pa : Bool) (b a d : Reg)
  /-- SCMP_LT_N32 (R124): Uniform natural less-than. -/
  | scmpLtN32 (pb pa : Bool) (b a d : Reg)
  /-- SCMP_LE_N32 (R124): Uniform natural less-or-equal. -/
  | scmpLeN32 (pb pa : Bool) (b a d : Reg)
  /-- SIADDI (R124): Uniform add immediate. -/
  | siaddi (imm : BitVec 11) (pa : Bool) (a d : Reg)
  /-- SMOVI (R124): Uniform move immediate. -/
  | smovi (imm : BitVec 11) (d : Reg)
  /-- SSLOI (R124): Uniform shift-left-or immediate. -/
  | ssloi (imm : BitVec 11) (pa : Bool) (a d : Reg)
  /-- SIMAD (R124): Uniform multiply-add. -/
  | simad (c b a d : Reg)
  /-- LDU_32 (R219): Uniform 4-byte load through a capability into an s register. -/
  | ldu32 (po : Bool) (disp : BitVec 7) (base : CReg) (o d : Reg)
  /-- MOV_VS (R127): Copies an s register into a v register in every active lane. -/
  | movVs (a b : Reg)
  /-- MOV_SV (R127): Copies the lowest active lane's v register into an s register. -/
  | movSv (a b : Reg)
  /-- RDLANE (R127): Copies lane n's v register into an s register. -/
  | rdlane (n : BitVec 5) (a b : Reg)
  /-- IADD_SHORT (R81): 16-bit IADD with vd as first source. -/
  | iaddShort (i : Bool) (s d : BitVec 5)
  /-- ISUB_SHORT (R81): 16-bit ISUB. -/
  | isubShort (i : Bool) (s d : BitVec 5)
  /-- IMUL_SHORT (R81): 16-bit IMUL. -/
  | imulShort (i : Bool) (s d : BitVec 5)
  /-- AND_SHORT (R81): 16-bit AND. -/
  | andShort (i : Bool) (s d : BitVec 5)
  /-- OR_SHORT (R81): 16-bit OR. -/
  | orShort (i : Bool) (s d : BitVec 5)
  /-- XOR_SHORT (R81): 16-bit XOR. -/
  | xorShort (i : Bool) (s d : BitVec 5)
  /-- SHL_SHORT (R81): 16-bit SHL. -/
  | shlShort (i : Bool) (s d : BitVec 5)
  /-- SHR_SHORT (R81): 16-bit SHR. -/
  | shrShort (i : Bool) (s d : BitVec 5)
  /-- SAR_SHORT (R81): 16-bit SAR. -/
  | sarShort (i : Bool) (s d : BitVec 5)
  /-- MOV_SHORT (R82): 16-bit register move. -/
  | movShort (s d : BitVec 5)
  /-- MOVI_SHORT (R82): 16-bit move of a sign-extended imm5. -/
  | moviShort (s d : BitVec 5)
  /-- IMIN_SHORT (R81): 16-bit signed minimum. -/
  | iminShort (i : Bool) (s d : BitVec 5)
  /-- IMAX_SHORT (R81): 16-bit signed maximum. -/
  | imaxShort (i : Bool) (s d : BitVec 5)
  /-- FADD_SHORT (R81): 16-bit FADD, RNE. -/
  | faddShort (s d : BitVec 5)
  /-- FSUB_SHORT (R81): 16-bit FSUB, RNE. -/
  | fsubShort (s d : BitVec 5)
  /-- FMUL_SHORT (R81): 16-bit FMUL, RNE. -/
  | fmulShort (s d : BitVec 5)
  /-- FMAX_SHORT (R81): 16-bit FMAX. -/
  | fmaxShort (s d : BitVec 5)
  /-- CMOV (R181): Copies a capability with its tag. -/
  | cmov (a b : CReg)
  /-- CSETB (R182): Narrows a capability's bounds. -/
  | csetb (x : Reg) (a b : CReg)
  /-- CANDP (R181): ANDs a capability's permissions with a mask. -/
  | candp (x : Reg) (a b : CReg)
  /-- CSEAL (R183): Seals a capability as a command of type 1 or 2. -/
  | cseal (x : Reg) (a b : CReg)
  /-- CUNSEAL (R183): Unseals a delegated capability for its recipient colour. -/
  | cunseal (a b : CReg)
  /-- CDELEG (R184): Delegates a capability to a recipient colour as type 4. -/
  | cdeleg (x : Reg) (a b : CReg)
  /-- CROOT (R185): Creates a root capability over extents, flue slots or a host region. -/
  | croot (x : Reg) (b : CReg)
  /-- CGET_BASE (R186): Writes the capability base to an s pair. -/
  | cgetBase (a : CReg) (b : Reg)
  /-- CGET_LEN (R186): Writes the length to an s pair. -/
  | cgetLen (a : CReg) (b : Reg)
  /-- CGET_PERM (R186): Writes the permissions. -/
  | cgetPerm (a : CReg) (b : Reg)
  /-- CGET_TYPE (R186): Writes the object type. -/
  | cgetType (a : CReg) (b : Reg)
  /-- CGET_TAG (R186): Writes the tag bit. -/
  | cgetTag (a : CReg) (b : Reg)
  /-- CGET_COLOUR (R186): Writes the colour. -/
  | cgetColour (a : CReg) (b : Reg)
  /-- CGET_GEN (R186): Writes the generation. -/
  | cgetGen (a : CReg) (b : Reg)
  /-- CCLRTAG (R181): Copies a capability with its tag cleared. -/
  | cclrtag (a b : CReg)
  /-- CTOQ (R181): Copies a capability with its tag into a v quad in every active lane. -/
  | ctoq (a : CReg) (b : Reg)
  /-- CFROMQ (R181): Takes a capability from the lowest active lane's quad. -/
  | cfromq (a : Reg) (b : CReg)
  /-- CCOVER (R187): Reports how one capability lies within another. -/
  | ccover (x a : CReg) (b : Reg)
  /-- LD_32 (R218): 4-byte load through a capability register. -/
  | ld32 (po : Bool) (disp : BitVec 7) (base : CReg) (o d : Reg)
  /-- LD_64 (R218): 8-byte load into a pair. -/
  | ld64 (po : Bool) (disp : BitVec 7) (base : CReg) (o d : Reg)
  /-- LD_128 (R218): 16-byte data load into a quad, tag cleared. -/
  | ld128 (po : Bool) (disp : BitVec 7) (base : CReg) (o d : Reg)
  /-- ST_32 (R218): 4-byte store, clearing overlapped tags. -/
  | st32 (po : Bool) (disp : BitVec 7) (base : CReg) (o d : Reg)
  /-- ST_64 (R218): 8-byte store from a pair. -/
  | st64 (po : Bool) (disp : BitVec 7) (base : CReg) (o d : Reg)
  /-- ST_128 (R218): 16-byte store from a quad. -/
  | st128 (po : Bool) (disp : BitVec 7) (base : CReg) (o d : Reg)
  /-- LD_32_QUAD (R218): 4-byte load through each lane's quad capability. -/
  | ld32Quad (po : Bool) (disp : BitVec 7) (base : CReg) (o d : Reg)
  /-- ST_32_QUAD (R218): 4-byte store through each lane's quad capability. -/
  | st32Quad (po : Bool) (disp : BitVec 7) (base : CReg) (o d : Reg)
  /-- CLD (R220): Loads a granule and its tag into a quad. -/
  | cld (po : Bool) (disp : BitVec 7) (base : CReg) (o d : Reg)
  /-- CST (R220): Stores a quad and its tag into a granule. -/
  | cst (po : Bool) (disp : BitVec 7) (base : CReg) (o d : Reg)
  /-- LDS_32 (R221): 4-byte load from scratchpad or cluster window, parking on empty lines. -/
  | lds32 (po : Bool) (disp : BitVec 7) (win : Bool) (o d : Reg)
  /-- STS_32 (R221): 4-byte store to scratchpad or cluster window. -/
  | sts32 (po : Bool) (disp : BitVec 7) (win : Bool) (o d : Reg)
  /-- LD_N8 (R218): Zero-extending byte load. -/
  | ldN8 (c : CReg) (a b : Reg)
  /-- LD_I8 (R218): Sign-extending byte load. -/
  | ldI8 (c : CReg) (a b : Reg)
  /-- LD_N16 (R218): Zero-extending half load. -/
  | ldN16 (c : CReg) (a b : Reg)
  /-- LD_I16 (R218): Sign-extending half load. -/
  | ldI16 (c : CReg) (a b : Reg)
  /-- ST_8 (R218): Byte store. -/
  | st8 (c : CReg) (a b : Reg)
  /-- ST_16 (R218): Half store. -/
  | st16 (c : CReg) (a b : Reg)
  /-- LD_N8_QUAD (R218): Zero-extending byte load, quad form. -/
  | ldN8Quad (c : CReg) (a b : Reg)
  /-- LD_I8_QUAD (R218): Sign-extending byte load, quad form. -/
  | ldI8Quad (c : CReg) (a b : Reg)
  /-- LD_N16_QUAD (R218): Zero-extending half load, quad form. -/
  | ldN16Quad (c : CReg) (a b : Reg)
  /-- LD_I16_QUAD (R218): Sign-extending half load, quad form. -/
  | ldI16Quad (c : CReg) (a b : Reg)
  /-- ST_8_QUAD (R218): Byte store, quad form. -/
  | st8Quad (c : CReg) (a b : Reg)
  /-- ST_16_QUAD (R218): Half store, quad form. -/
  | st16Quad (c : CReg) (a b : Reg)
  /-- LD_64_QUAD (R218): 8-byte load, quad form. -/
  | ld64Quad (c : CReg) (a b : Reg)
  /-- ST_64_QUAD (R218): 8-byte store, quad form. -/
  | st64Quad (c : CReg) (a b : Reg)
  /-- LD_128_QUAD (R218): 16-byte load, quad form. -/
  | ld128Quad (c : CReg) (a b : Reg)
  /-- ST_128_QUAD (R218): 16-byte store, quad form. -/
  | st128Quad (c : CReg) (a b : Reg)
  /-- ATOM_ADD (R225): Atomic add at the home slice, returning the old word. -/
  | atomAdd (c : CReg) (a b : Reg)
  /-- ATOM_MIN_I32 (R225): Atomic signed minimum. -/
  | atomMinI32 (c : CReg) (a b : Reg)
  /-- ATOM_MAX_I32 (R225): Atomic signed maximum. -/
  | atomMaxI32 (c : CReg) (a b : Reg)
  /-- ATOM_MIN_N32 (R225): Atomic natural minimum. -/
  | atomMinN32 (c : CReg) (a b : Reg)
  /-- ATOM_MAX_N32 (R225): Atomic natural maximum. -/
  | atomMaxN32 (c : CReg) (a b : Reg)
  /-- ATOM_AND (R225): Atomic AND. -/
  | atomAnd (c : CReg) (a b : Reg)
  /-- ATOM_OR (R225): Atomic OR. -/
  | atomOr (c : CReg) (a b : Reg)
  /-- ATOM_XOR (R225): Atomic XOR. -/
  | atomXor (c : CReg) (a b : Reg)
  /-- ATOM_SWAP (R225): Atomic swap. -/
  | atomSwap (c : CReg) (a b : Reg)
  /-- ATOM_CAS (R225): Atomic compare-and-swap with a pair operand. -/
  | atomCas (c : CReg) (a b : Reg)
  /-- ATOM_ADD_F32 (R225): Atomic FP32 add, RNE. -/
  | atomAddF32 (c : CReg) (a b : Reg)
  /-- RED_ADD (R225): Reduction add with no return. -/
  | redAdd (c : CReg) (a b : Reg)
  /-- RED_MIN_I32 (R225): Reduction signed minimum. -/
  | redMinI32 (c : CReg) (a b : Reg)
  /-- RED_MAX_I32 (R225): Reduction signed maximum. -/
  | redMaxI32 (c : CReg) (a b : Reg)
  /-- RED_MIN_N32 (R225): Reduction natural minimum. -/
  | redMinN32 (c : CReg) (a b : Reg)
  /-- RED_MAX_N32 (R225): Reduction natural maximum. -/
  | redMaxN32 (c : CReg) (a b : Reg)
  /-- RED_AND (R225): Reduction AND. -/
  | redAnd (c : CReg) (a b : Reg)
  /-- RED_OR (R225): Reduction OR. -/
  | redOr (c : CReg) (a b : Reg)
  /-- RED_XOR (R225): Reduction XOR. -/
  | redXor (c : CReg) (a b : Reg)
  /-- RED_ADD_F32 (R225): Reduction FP32 add. -/
  | redAddF32 (c : CReg) (a b : Reg)
  /-- ATOMS_ADD (R226): Scratchpad atomic add. -/
  | atomsAdd (win : Bool) (a b : Reg)
  /-- ATOMS_MIN_I32 (R226): Scratchpad atomic signed minimum. -/
  | atomsMinI32 (win : Bool) (a b : Reg)
  /-- ATOMS_MAX_I32 (R226): Scratchpad atomic signed maximum. -/
  | atomsMaxI32 (win : Bool) (a b : Reg)
  /-- ATOMS_MIN_N32 (R226): Scratchpad atomic natural minimum. -/
  | atomsMinN32 (win : Bool) (a b : Reg)
  /-- ATOMS_MAX_N32 (R226): Scratchpad atomic natural maximum. -/
  | atomsMaxN32 (win : Bool) (a b : Reg)
  /-- ATOMS_AND (R226): Scratchpad atomic AND. -/
  | atomsAnd (win : Bool) (a b : Reg)
  /-- ATOMS_OR (R226): Scratchpad atomic OR. -/
  | atomsOr (win : Bool) (a b : Reg)
  /-- ATOMS_XOR (R226): Scratchpad atomic XOR. -/
  | atomsXor (win : Bool) (a b : Reg)
  /-- ATOMS_SWAP (R226): Scratchpad atomic swap. -/
  | atomsSwap (win : Bool) (a b : Reg)
  /-- ATOMS_CAS (R226): Scratchpad atomic compare-and-swap. -/
  | atomsCas (win : Bool) (a b : Reg)
  /-- ATOMS_ADD_F32 (R226): Scratchpad atomic FP32 add. -/
  | atomsAddF32 (win : Bool) (a b : Reg)
  /-- PREFETCH (R223): Asks the home slice to hold a line, with no visible effect. -/
  | prefetch (c : CReg) (a : Reg)
  /-- WAITMEM_NE (R224): Parks until each lane's word differs from its comparand. -/
  | waitmemNe (c : CReg) (a b : Reg)
  /-- WAITMEM_EQ (R224): Parks until each lane's word equals its comparand. -/
  | waitmemEq (c : CReg) (a b : Reg)
  /-- SPEMPTY (R222): Sets scratchpad lines empty. -/
  | spempty (a : Reg)
  /-- SPFILL (R222): Sets scratchpad lines full and wakes splits parked on them. -/
  | spfill (a : Reg)
  /-- SHAPE (R231): Checks and writes a 32-byte shape record. -/
  | shape (c : CReg) (a b : Reg)
  /-- FENCE (R241): Orders the lane's accesses at a scope and kind. -/
  | fence (scope : BitVec 3) (kind : BitVec 2)
  /-- FENCE_SHAPE (R243): Waits for earlier stores and drops overlapped shape-cache entries on every die. -/
  | fenceShape
  /-- BAR_ARV (R252): Records the active lanes' arrival at a barrier. -/
  | barArv (lvl : BitVec 2) (idx : BitVec 4)
  /-- BAR_WAIT (R252): Parks until the barrier phase changes or ERROR is set, then writes the phase word. -/
  | barWait (lvl : BitVec 2) (idx : BitVec 4) (b : Reg)
  /-- BAR_SYNC (R252): Arrival followed by wait, as one instruction. -/
  | barSync (lvl : BitVec 2) (idx : BitVec 4) (b : Reg)
  /-- BAR_EXP (R252): Sets expected arrivals, adds expected sectors, optionally clears ERROR. -/
  | barExp (lvl : BitVec 2) (idx : BitVec 4) (b : Reg)
  /-- TCFG (R258): Writes a checked tile configuration. -/
  | tcfg (t : TReg) (b : Reg)
  /-- TLD (R259): Loads a tile image into a tile register, emptying it until the image lands. -/
  | tld (c : CReg) (t : TReg) (b : Reg)
  /-- TST (R259): Stores a full tile register as a tile image. -/
  | tst (c : CReg) (t : TReg) (b : Reg)
  /-- MMA (R261): Adds the product of two tiles into an accumulator bank. -/
  | mma (tb ta : TReg) (d : CReg)
  /-- MMAQ (R264): Mixed-format product with k range, bias and sign from a format block. -/
  | mmaq (f : CReg) (tb ta : TReg) (d : CReg)
  /-- MMA_S (R265): Product with B streamed through the stationary port. -/
  | mmaS (c : CReg) (a : Reg) (ta : BitVec 2) (d : CReg)
  /-- ACC_ALLOC (R269): Allocates and zeroes a reserved bank. -/
  | accAlloc (d : CReg)
  /-- ACC_FREE (R269): Frees a bank after its earlier readers. -/
  | accFree (d : CReg)
  /-- ACC_ZERO (R269): Zeroes a bank and clears its fault. -/
  | accZero (d : CReg)
  /-- ACC_RD (R270): Reads 32 bank elements of a row into lanes. -/
  | accRd (f d : CReg) (b : Reg)
  /-- ACC_WR (R270): Writes lane values into bank elements of a row. -/
  | accWr (f d : CReg) (b : Reg)
  /-- ACC_DRAIN (R271): Drains a row band of a bank to memory or scratchpad. -/
  | accDrain (c d : CReg) (b : Reg)
  /-- ACC_DRAIN_ADD (R271): Drains a row band, adding to the destination indivisibly. -/
  | accDrainAdd (c d : CReg) (b : Reg)
  /-- ACC_QUANT (R275): Quantises a bank into an SB tile. -/
  | accQuant (d : CReg) (t : TReg)
  /-- FLUE_BOARD (R284): Reads 16 bytes of memory and boards them into a vacant flue slot. -/
  | flueBoard (c : CReg) (ord rel : Bool) (a : Reg) (m : CReg)
  /-- FLUE_ALIGHT (R285): Writes a live slot back to memory and vacates it. -/
  | flueAlight (c : CReg) (ord rel : Bool) (a : Reg) (m : CReg)
  /-- FLUE_PEEK (R287): Reads a live slot's 16 bytes into a quad. -/
  | fluePeek (c : CReg) (ord acq : Bool) (a b : Reg)
  /-- FLUE_WAIT_EQ (R288): Parks until slot word 0 equals the comparand. -/
  | flueWaitEq (c : CReg) (ord acq : Bool) (a b : Reg)
  /-- FLUE_WAIT_NE (R288): Parks until slot word 0 differs from the comparand. -/
  | flueWaitNe (c : CReg) (ord acq : Bool) (a b : Reg)
  /-- FLUE_REV (R289): Writes the flue revolution counter to an s register. -/
  | flueRev (c : CReg) (b : Reg)
  /-- FLUE_CAP (R286): Read-modify-write capture of one slot. -/
  | flueCap (c : CReg) (ord : Bool) (ordering : BitVec 2) (op : BitVec 3) (a b : Reg)
  /-- FLUE_CAP_S2 (R286): Indivisible capture of two slots of one grate. -/
  | flueCapS2 (c : CReg) (ord : Bool) (ordering : BitVec 2) (op : BitVec 3) (a b : Reg)
  /-- FLUE_CAP_S4 (R286): Indivisible capture of four slots of one grate. -/
  | flueCapS4 (c : CReg) (ord : Bool) (ordering : BitVec 2) (op : BitVec 3) (a b : Reg)
  /-- QW (R299): Writes one 64-bit word of a staging area. -/
  | qw (w q : BitVec 2) (a : Reg)
  /-- QGO (R300): Submits a staging area as an engine command. -/
  | qgo (q : BitVec 2)
  /-- QGO_C (R301): Submits a sealed 96-byte command block from memory. -/
  | qgoC (q : BitVec 2) (c : CReg)
  /-- QRD (R302): Pops the oldest result record, parking while none waits. -/
  | qrd (q : BitVec 2) (toS : Bool) (b : Reg)
  /-- QSTAT (R303): Writes a queue's record, running and written counts. -/
  | qstat (q : BitVec 2) (b : Reg)
  /-- LAUNCH (R328): Reads a launch record and enqueues it at its priority. -/
  | launch (c : CReg) (a : Reg)
  /-- GRAPH_TRIG (R332): Checks a patch list and queues a trigger of a task graph. -/
  | graphTrig (c : CReg) (a b : Reg)
  /-- AMSEND (R339): Checks a destination and queues a 64-byte active message. -/
  | amsend (a b : Reg)
  /-- HCMD (R381): Enters a reconfiguration list into the partition command queue. -/
  | hcmd (c : CReg) (a b : Reg)
  /-- SWEEP (R388): Requests one sweeper pass. -/
  | sweep
  /-- PHALT (R372): Halts a partition on every core and seals its core records. -/
  | phalt (a : Reg)
  /-- PRESUME (R372): Returns a halted partition to the turns of its cores. -/
  | presume (a : Reg)
  /-- RESYNC (R320): Sets the device's resync request on a desynchronised channel. -/
  | resync (a : Reg)
  /-- ESIGN (R401): Requests a signed energy reading of the partition's colour. -/
  | esign (c : CReg) (a : Reg)
  /-- PSNAP (R393): Snapshots PERF0–PERF15 at one clk into s registers. -/
  | psnap (b : Reg)
  /-- MFCR (R67): Reads a control register, latching the high half for CLKLO and ENERGYLO. -/
  | mfcr (idx : BitVec 12) (toS : Bool) (b : Reg)
  /-- MTCR (R67): Writes a control register after the privilege and value checks. -/
  | mtcr (idx : BitVec 12) (a : Reg)
  /-- TRET (R361): Returns the split's lanes to the mode, depth and RESUME of the trap. -/
  | tret
  /-- IFENCE (R164): Discards the split's prefetched instructions. -/
  | ifence
  /-- BKPT (R161): Traps every active lane with cause 66. -/
  | bkpt
  /-- SYSCALL (R161): Traps every active lane with cause 64 and n in the detail. -/
  | syscall (n : BitVec 8)
  /-- HVCALL (R161): Traps every active lane into H mode with cause 65. -/
  | hvcall (n : BitVec 8)
  /-- JOIN_HOLD_END (R36): A JOIN hold of n clk expires and the split continues alone. -/
  | joinHoldEnd (g e : Nat)
  /-- YIELD_RELEASE (R160): A yielding split may issue again after others had a chance or 64 clk. -/
  | yieldRelease (g e : Nat)
  /-- PROGRESS_BOUND_EXPIRY (R42): A ready split unissued for 512 clk issues, overriding the damper. -/
  | progressBoundExpiry (g e : Nat)
  /-- SPLIT_WAKE (R41): A parked split becomes ready within 8 clk of its condition. -/
  | splitWake (g e : Nat)
  /-- DISPATCH (R29): The dispatcher takes the oldest record of the most urgent level and checks it. -/
  | dispatch (p : Nat)
  /-- BLOCK_PLACEMENT (R324): The dispatcher places the next block or cluster group on a core where it fits. -/
  | blockPlacement (p : Nat)
  /-- BLOCK_COMPLETION (R325): A block whose gangs have ended frees its resources and counts a COMPLETION arrival. -/
  | blockCompletion (b : Nat)
  /-- GRAPH_RUN_START (R333): The next trigger's run applies patches, takes its barrier and enqueues root nodes. -/
  | graphRunStart (p n : Nat)
  /-- EVICTION (R45): The core scheduler evicts a parked gang to the eviction area. -/
  | eviction (g : Nat)
  /-- REINSTATEMENT (R46): An evicted gang whose wake condition holds is restored and its requests reissued. -/
  | reinstatement (g : Nat)
  /-- SLICE_END (R50): SLICECLK reaches SLICELEN, ending the slice and clearing SLICECLK. -/
  | sliceEnd (core : Nat)
  /-- TRAP_ENTRY (R355): Trapping lanes take a trap when their depth is free: frame, return record, handler split. -/
  | trapEntry (g e : Nat)
  /-- BLOCK_HALT (R51): A gang receiving the halt stops after its skid and writes a cause 67 frame. -/
  | blockHalt (g : Nat)
  /-- LOAD_RETURN (R57): A returned value fills its destination registers. -/
  | loadReturn (id : Nat)
  /-- ACCESS_REJECTION (R174): A home-slice rejection arrives and traps the lanes concerned. -/
  | accessRejection (id : Nat)
  /-- HOME_SLICE_ACCESS (R199): An access arrives at its home slice and is checked and performed. -/
  | homeSliceAccess (id : Nat) (keep : Bool) (err : MemErr)
  /-- EXTENT_CHANGE_COMPLETION (R193): An extent change completes once every controller, slice and L1 holds the new entry. -/
  | extentChangeCompletion (e : Nat)
  /-- MATRIX_START (R266): A matrix instruction starts when its tiles are full and earlier ones have started. -/
  | matrixStart (core : Nat)
  /-- MATRIX_COMPLETION (R266): A matrix instruction's bank update is applied indivisibly. -/
  | matrixCompletion (core : Nat)
  /-- TILE_FILL (R259): A tile fills when its last row and scale word land. -/
  | tileFill (id : Nat)
  /-- DRAIN_DELIVERY (R273): A drain delivers a sector and counts it on its barrier. -/
  | drainDelivery (id : Nat)
  /-- COPY1D (R307): Copies a run of bytes. -/
  | copy1d (id : Nat)
  /-- COPY2D (R307): Copies rows of bytes with pitches. -/
  | copy2d (id : Nat)
  /-- COPYTILE (R308): Copies tiles of a shaped tensor as tile images. -/
  | copytile (id : Nat)
  /-- FILL (R307): Fills a destination with an 8-byte pattern. -/
  | fill (id : Nat)
  /-- SEAL (R310): Encrypts plaintext into a counted checkpoint image. -/
  | seal (id : Nat)
  /-- OPEN (R310): Checks, consumes and decrypts a checkpoint image. -/
  | open_ (id : Nat)
  /-- GATHER (R309): Gathers indexed table elements into a dense array. -/
  | gather (id : Nat)
  /-- SCATTER (R309): Scatters dense elements into indexed table places. -/
  | scatter (id : Nat)
  /-- SEND (R311): Sends data chunk by chunk to a matched RECV. -/
  | send (id : Nat)
  /-- RECV (R311): Receives chunks from a matched SEND. -/
  | recv (id : Nat)
  /-- BCAST (R311): Sends data to every die in a mask. -/
  | bcast (id : Nat)
  /-- ENGINE_SECTOR_DELIVERY (R314): An engine delivers a sector and counts it on its barrier. -/
  | engineSectorDelivery (id : Nat)
  /-- ENGINE_COMMAND_COMPLETION (R316): A command completes: sectors counted, record queued, entry freed. -/
  | engineCommandCompletion (id : Nat)
  /-- ENGINE_COMMAND_FAILURE (R317): A running command fails at a sector boundary with a STATUS 1 record. -/
  | engineCommandFailure (id : Nat)
  /-- FLUE_PASS (R290): A grate passes a stop: one write applied, peeks and waits served. -/
  | fluePass (stop : Nat)
  /-- FLUE_ALIGHT_COMPLETION (R285): An alighting store becomes visible and the slot becomes vacant. -/
  | flueAlightCompletion (id : Nat)
  /-- MESSAGE_ARRIVAL (R344): An active message arrives at its destination core's inbound queue. -/
  | messageArrival (src : Nat) (peer : Option PeerMessage)
  /-- HANDLER_SPAWN (R346): A free handler seat spawns a gang for the oldest message. -/
  | handlerSpawn (core : Nat)
  /-- SIGNED_READING_WRITE (R401): The security controller writes the signed reading and releases the split. -/
  | signedReadingWrite (g e : Nat)
  /-- RECONFIGURATION_LIST_APPLY (R385): The partition command queue reads, checks and applies or rejects one list. -/
  | reconfigurationListApply
  /-- SWEEP_PASS (R386): A sweeper pass starts and clears stale tags in every tag-bearing location. -/
  | sweepPass
  /-- SWEEP_PASS_COMPLETION (R387): A pass completes, freeing sweeping extents and ending colour retirement. -/
  | sweepPassCompletion
  /-- HOST_SNOOP (R202): A host snoop takes a host-window line from its slice. -/
  | hostSnoop (pasid line : Nat) (data : List HostCell)
  /-- ATS_COMPLETION (R203): An ATS translation completes and fills the window translation cache. -/
  | atsCompletion (die pasid page size : Nat) (res : AtsResult)
  /-- ATS_INVALIDATION (R203): A host invalidation removes matching translations on every die. -/
  | atsInvalidation (pasid page size : Nat)
  /-- PAGE_REQUEST_RESPONSE (R204): The host's page response retranslates or faults the waiting lanes. -/
  | pageRequestResponse (pasid page : Nat) (ok : Bool)
  /-- HOST_CXL_MEM_ACCESS (R408): A host CXL.mem read or write reaches device memory or a channel window. -/
  | hostCxlMemAccess (off size : Nat) (data : Option (List Byte)) (abort : Bool)
  /-- HOST_REGISTER_WRITE (R404): A host write to a BAR0 register without its own row. -/
  | hostRegisterWrite (off : Nat) (val : Word)
  /-- EVTAIL_WRITE (R406): The host advances EVTAIL, letting held event entries be written. -/
  | evtailWrite (val : Word)
  /-- MAILBOX_LAUNCH (R405): Reads a launch record and enqueues it for a partition. -/
  | mailboxLaunch
  /-- MAILBOX_GRAPH_TRIG (R405): Triggers a task graph from the host. -/
  | mailboxGraphTrig
  /-- RECONFIGURE (R405): Enters a host list into the partition command queue. -/
  | reconfigure
  /-- ENERGY_READ (R405): Returns a signed energy reading in MBDATA. -/
  | energyRead
  /-- ATTEST (R410): Returns a signed attestation report for a nonce. -/
  | attest
  /-- KEM_KEY (R405): Returns the device's ML-KEM-1024 encapsulation key. -/
  | kemKey
  /-- KEY_LOAD (R409): Decapsulates and loads a weights key into a partition's slot. -/
  | keyLoad
  /-- CHANNEL_RESYNC (R320): Sets the host's resync request on a channel. -/
  | channelResync
  /-- MODE (R407): Scrubs the device and enters or leaves confidential mode. -/
  | mode_
  /-- MIGRATE_WRAP (R411): Wraps the checkpoint key to a verified destination and stales the source image. -/
  | migrateWrap
  /-- MIGRATE_UNWRAP (R411): Unwraps a migrated checkpoint key as the context's import key. -/
  | migrateUnwrap
  /-- PAIR (R413): Pairs a local partition with a peer partition on a port. -/
  | pair
  /-- LINK_UP (R412): A fabric port links up, exchanges reports and agrees a port key. -/
  | linkUp (port : Nat) (rep : PeerReport)
  /-- LINK_LOSS (R412): A fabric port loses its link, failing commands and losing messages. -/
  | linkLoss (port : Nat)
  /-- DEVICE_RESET (R416): Device reset: firmware check, energy restore, scrub in the strap's mode. -/
  | deviceReset (strap : Bool)
  /-- PERST (R415): CXL fundamental reset of the host link. -/
  | perst
  /-- POWER_LOSS (R400): Power is lost without orderly reset, and GAPS increments on return. -/
  | powerLoss (strap : Bool)
  /-- POWER_WINDOW_END (R16): At each 1 ms window end the power controller chooses the clock step. -/
  | powerWindowEnd (power : Nat) (temps : List Nat)
  /-- ENERGY_RECONCILIATION (R397): Every 1 ms the measured energy is divided among the accounts. -/
  | energyReconciliation (m : Measurement)
  /-- ENERGY_PERSIST (R400): Every 100 ms the accounts are written to the non-volatile store. -/
  | energyPersist
  /-- HBM_BACKGROUND_READ (R211): Every 24 hours each HBM4 ECC word is read and corrected. -/
  | hbmBackgroundRead (ces ues : List Nat)
  /-- DAMPER_WINDOW_END (R335): At each 1,024 clk window end the damper allowance halves, doubles or stays. -/
  | damperWindowEnd (core : Nat)
  /-- RAISED_WRITER (R338): A writer waiting 1,024 clk for a token is raised in priority. -/
  | raisedWriter (ch writer : Nat)
  /-- HOST_REGISTER_READ (R408): A host CXL.io read of a device register, which in confidential mode returns 0 outside the allow-list and is logged in the audit queue, and which acts as an acquire when it sees MBSTAT.BUSY clear. -/
  | hostRegisterRead (off : Nat)
  /-- HOST_LINK_LOSS (R367): The CXL host link goes down, so that host-window accesses raise host link down, cause 18, until it is up again. -/
  | hostLinkLoss (down : Bool)
  /-- PEER_PAIR (R413): The peer device's matching PAIR arrives on the port and the pair key is derived, so the pair comes into existence. -/
  | peerPair (port local_ peer : Nat) (ok : Bool)
  deriving DecidableEq, Repr

end Sys2Proof
end

