-- ==== Sys2Proof/Decode.lean ====
section
/-! DEFINITION. The decoder, total on any bytes, rejecting by name, and after it the encoder (R73 to R93). The decoder
makes checks 1 and 2 of R92; the privilege, register and K2 checks come at issue. -/

namespace Sys2Proof

noncomputable section

/-- Why the decoder refuses bytes: each raises illegal instruction, cause 32 (R92), but truncated, for which no
whole instruction was supplied. -/
inductive DecodeError where
  | truncated
  | zeroParcel
  | unassigned
  | reserved
  deriving DecidableEq, Repr

/-- A reserved field must be 0 (R92 check 2). -/
def need (ok : Bool) (i : Instr) : Except DecodeError Instr := if ok then .ok i else .error .reserved

/-- The low 3 bits of a field, naming k or t, and whether the reserved rest is 0 (R76). -/
def lo3 (r : Reg) : BitVec 3 := r.extractLsb' 0 3
def hi3of (r : Reg) : BitVec 3 := r.extractLsb' 3 3
def hi3 (r : Reg) : Bool := hi3of r == 0
/-- The low 4 bits of a field, naming c or a bank, and whether the reserved rest is 0 (R76). -/
def lo4 (r : Reg) : BitVec 4 := r.extractLsb' 0 4
def hi2 (r : Reg) : Bool := r.extractLsb' 4 2 == 0
def k6 (k : BitVec 3) : Reg := 0#3 ++ k
def c6 (c : BitVec 4) : Reg := 0#2 ++ c
def b4 (b : Bool) : BitVec 4 := 0#3 ++ BitVec.ofBool b
def b6 (b : Bool) : Reg := 0#5 ++ BitVec.ofBool b

/-- The word layouts of R75 and R81. -/
def enc3R (op : BitVec 7) (fn : BitVec 4) (pb pa : Bool) (b a d : Reg) : Word :=
  fn ++ BitVec.ofBool pb ++ BitVec.ofBool pa ++ b ++ a ++ d ++ op ++ 1#1
def enc4R (op : BitVec 7) (c b a d : Reg) : Word := c ++ b ++ a ++ d ++ op ++ 1#1
def encI (op : BitVec 7) (imm : BitVec 11) (pa : Bool) (a d : Reg) : Word :=
  imm ++ BitVec.ofBool pa ++ a ++ d ++ op ++ 1#1
def encM (op : BitVec 7) (po : Bool) (disp : BitVec 7) (base : CReg) (o d : Reg) : Word :=
  BitVec.ofBool po ++ disp ++ base ++ o ++ d ++ op ++ 1#1
def encB (op : BitVec 7) (disp : BitVec 21) (k : KReg) : Word := disp ++ k ++ op ++ 1#1
def encX (op : BitVec 7) (fn : BitVec 12) (a b : Reg) : Word := fn ++ a ++ b ++ op ++ 1#1
def encC (sub x a b : Reg) : Word := sub ++ x ++ a ++ b ++ 0x60#7 ++ 1#1
def enc16 (i : Bool) (s d : BitVec 5) (op : BitVec 4) : BitVec 16 := BitVec.ofBool i ++ s ++ d ++ op ++ 0#1

/-- Function codes of major opcode 0x00, format 3R (R83). -/
def dec00 (fn : Nat) (pb pa : Bool) (b a d : Reg) : Except DecodeError Instr :=
  match fn with
  | 0 => .ok (.iadd pb pa b a d)
  | 1 => .ok (.isub pb pa b a d)
  | 2 => .ok (.imul pb pa b a d)
  | 3 => .ok (.imulhI32 pb pa b a d)
  | 4 => .ok (.imulhN32 pb pa b a d)
  | 5 => .ok (.iminI32 pb pa b a d)
  | 6 => .ok (.iminN32 pb pa b a d)
  | 7 => .ok (.imaxI32 pb pa b a d)
  | 8 => .ok (.imaxN32 pb pa b a d)
  | 9 => need (!pb && b == 0) (.iabsI32 pa a d)
  | 10 => .ok (.iaddsI32 pb pa b a d)
  | 11 => .ok (.isubsI32 pb pa b a d)
  | 12 => .ok (.iaddsN32 pb pa b a d)
  | 13 => .ok (.isubsN32 pb pa b a d)
  | _ => .error .unassigned

/-- Function codes of major opcode 0x01, format 3R (R83). -/
def dec01 (fn : Nat) (pb pa : Bool) (b a d : Reg) : Except DecodeError Instr :=
  match fn with
  | 0 => .ok (.and_ pb pa b a d)
  | 1 => .ok (.or_ pb pa b a d)
  | 2 => .ok (.xor_ pb pa b a d)
  | 3 => .ok (.andn pb pa b a d)
  | 4 => .ok (.shl pb pa b a d)
  | 5 => .ok (.shr pb pa b a d)
  | 6 => .ok (.sar pb pa b a d)
  | 7 => .ok (.rol pb pa b a d)
  | 8 => need (!pb && b == 0) (.popc pa a d)
  | 9 => need (!pb && b == 0) (.clz pa a d)
  | 10 => need (!pb && b == 0) (.brev pa a d)
  | _ => .error .unassigned

/-- Function codes of major opcode 0x02, format 3R (R83). -/
def dec02 (fn : Nat) (pb pa : Bool) (b a d : Reg) : Except DecodeError Instr :=
  match fn with
  | 0 => need (hi3 d) (.icmpEq pb pa b a (lo3 d))
  | 1 => need (hi3 d) (.icmpNe pb pa b a (lo3 d))
  | 2 => need (hi3 d) (.icmpLtI32 pb pa b a (lo3 d))
  | 3 => need (hi3 d) (.icmpLeI32 pb pa b a (lo3 d))
  | 4 => need (hi3 d) (.icmpLtN32 pb pa b a (lo3 d))
  | 5 => need (hi3 d) (.icmpLeN32 pb pa b a (lo3 d))
  | 6 => need (hi3 d) (.fcmpEq pb pa b a (lo3 d))
  | 7 => need (hi3 d) (.fcmpNe pb pa b a (lo3 d))
  | 8 => need (hi3 d) (.fcmpLt pb pa b a (lo3 d))
  | 9 => need (hi3 d) (.fcmpLe pb pa b a (lo3 d))
  | 10 => need (hi3 d) (.fcmpUn pb pa b a (lo3 d))
  | _ => .error .unassigned

/-- Function codes of major opcode 0x08, format 3R (R83). -/
def dec08 (fn : Nat) (pb pa : Bool) (b a d : Reg) : Except DecodeError Instr :=
  match fn with
  | 0 => .ok (.iaddI64 pb pa b a d)
  | 1 => .ok (.isubI64 pb pa b a d)
  | 2 => .ok (.shlI64 pb pa b a d)
  | 3 => .ok (.shrN64 pb pa b a d)
  | 4 => .ok (.sarI64 pb pa b a d)
  | 5 => .ok (.imulwI32 pb pa b a d)
  | 6 => .ok (.imulwN32 pb pa b a d)
  | 7 => .ok (.iminI64 pb pa b a d)
  | 8 => .ok (.imaxI64 pb pa b a d)
  | _ => .error .unassigned

/-- Function codes of major opcode 0x13, format 3R (R83). -/
def dec13 (fn : Nat) (pb pa : Bool) (b a d : Reg) : Except DecodeError Instr :=
  match fn with
  | 0 => need (!pb && b == 0) (.mov pa a d)
  | 1 => need (!pb && b == 0) (.sextI8 pa a d)
  | 2 => need (!pb && b == 0) (.sextI16 pa a d)
  | 3 => need (!pb && b == 0) (.zextN8 pa a d)
  | 4 => need (!pb && b == 0) (.zextN16 pa a d)
  | _ => .error .unassigned

/-- Function codes of major opcode 0x14, format 3R (R83). -/
def dec14 (fn : Nat) (pb pa : Bool) (b a d : Reg) : Except DecodeError Instr :=
  match fn with
  | 0 => .ok (.fadd pb pa b a d)
  | 1 => .ok (.fsub pb pa b a d)
  | 2 => .ok (.fmul pb pa b a d)
  | 3 => .ok (.fmin pb pa b a d)
  | 4 => .ok (.fmax pb pa b a d)
  | 5 => .ok (.fdiv pb pa b a d)
  | 6 => need (!pb && b == 0) (.fabs pa a d)
  | 7 => need (!pb && b == 0) (.fneg pa a d)
  | 8 => need (!pb && b == 0) (.fsqrt pa a d)
  | 9 => need (!pb && b == 0) (.frcp pa a d)
  | 10 => need (!pb && b == 0) (.frsq pa a d)
  | 11 => need (!pb && b == 0) (.fexp2 pa a d)
  | 12 => need (!pb && b == 0) (.flog2 pa a d)
  | 13 => need (!pb && b == 0) (.fsin pa a d)
  | 14 => need (!pb && b == 0) (.fcos pa a d)
  | _ => .error .unassigned

/-- Function codes of major opcode 0x16, format 3R (R83). -/
def dec16 (fn : Nat) (pb pa : Bool) (b a d : Reg) : Except DecodeError Instr :=
  match fn with
  | 0 => .ok (.haddF16 pb pa b a d)
  | 1 => .ok (.hsubF16 pb pa b a d)
  | 2 => .ok (.hmulF16 pb pa b a d)
  | 3 => .ok (.hminF16 pb pa b a d)
  | 4 => .ok (.hmaxF16 pb pa b a d)
  | 5 => .ok (.haddBf16 pb pa b a d)
  | 6 => .ok (.hsubBf16 pb pa b a d)
  | 7 => .ok (.hmulBf16 pb pa b a d)
  | 8 => .ok (.hminBf16 pb pa b a d)
  | 9 => .ok (.hmaxBf16 pb pa b a d)
  | _ => .error .unassigned

/-- Function codes of major opcode 0x19, format 3R (R83). -/
def dec19 (fn : Nat) (pb pa : Bool) (b a d : Reg) : Except DecodeError Instr :=
  match fn with
  | 0 => need (!pb && b == 0) (.cvtF32I32 pa a d)
  | 1 => need (!pb && b == 0) (.cvtF32N32 pa a d)
  | 2 => need (!pb && b == 0) (.cvtI32F32 pa a d)
  | 3 => need (!pb && b == 0) (.cvtN32F32 pa a d)
  | 4 => need (!pb && b == 0) (.cvtF16F32 pa a d)
  | 5 => need (!pb && b == 0) (.cvtBf16F32 pa a d)
  | 6 => need (!pb && b == 0) (.cvtF32F16 pa a d)
  | 7 => need (!pb && b == 0) (.cvtF32Bf16 pa a d)
  | 8 => need (!pb && b == 0) (.frnd pa a d)
  | _ => .error .unassigned

/-- Function codes of major opcode 0x1a, format 3R (R83). -/
def dec1A (fn : Nat) (pb pa : Bool) (b a d : Reg) : Except DecodeError Instr :=
  match fn with
  | 0 => need (!pb && b == 0) (.quantSb7 pa a d)
  | 1 => need (!pb && b == 0) (.quantSb4 pa a d)
  | 2 => need (!pb && b == 0) (.quantSb2 pa a d)
  | 3 => .ok (.deqSb7 pb pa b a d)
  | 4 => .ok (.deqSb4 pb pa b a d)
  | 5 => .ok (.deqSb2 pb pa b a d)
  | _ => .error .unassigned

/-- Function codes of major opcode 0x1c, format 3R (R83). -/
def dec1C (fn : Nat) (pb pa : Bool) (b a d : Reg) : Except DecodeError Instr :=
  match fn with
  | 0 => .ok (.lsel pb pa b a d)
  | 1 => .ok (.lstep pb pa b a d)
  | 2 => .ok (.lstepW pb pa b a d)
  | 3 => .ok (.lmirror pb pa b a d)
  | 4 => need (!pb && !pa && b == 0 && hi3 a) (.kmask (lo3 a) d)
  | 5 => need (!pb && !pa && b == 0 && hi3 a) (.kcount (lo3 a) d)
  | 6 => need (!pb && !pa && b == 0 && hi3 a) (.krank (lo3 a) d)
  | 7 => need (!pb && b == 0) (.lkin pa a d)
  | 8 => need (!pb && b == 0) (.lfoldAdd pa a d)
  | 9 => need (!pb && b == 0) (.lfoldMinI32 pa a d)
  | 10 => need (!pb && b == 0) (.lfoldMaxI32 pa a d)
  | 11 => need (!pb && b == 0) (.lfoldAnd pa a d)
  | 12 => need (!pb && b == 0) (.lfoldOr pa a d)
  | 13 => need (!pb && b == 0) (.lfoldXor pa a d)
  | 14 => need (!pb && b == 0) (.lfoldMinN32 pa a d)
  | 15 => need (!pb && b == 0) (.lfoldMaxN32 pa a d)
  | _ => .error .unassigned

/-- Function codes of major opcode 0x40, format 3R (R84). -/
def dec40 (fn : Nat) (pb pa : Bool) (b a d : Reg) : Except DecodeError Instr :=
  match fn with
  | 0 => .ok (.siadd pb pa b a d)
  | 1 => .ok (.sisub pb pa b a d)
  | 2 => .ok (.simul pb pa b a d)
  | 3 => .ok (.simulhI32 pb pa b a d)
  | 4 => .ok (.simulhN32 pb pa b a d)
  | 5 => .ok (.siminI32 pb pa b a d)
  | 6 => .ok (.siminN32 pb pa b a d)
  | 7 => .ok (.simaxI32 pb pa b a d)
  | 8 => .ok (.simaxN32 pb pa b a d)
  | 9 => need (!pb && b == 0) (.siabsI32 pa a d)
  | 10 => .ok (.siaddsI32 pb pa b a d)
  | 11 => .ok (.sisubsI32 pb pa b a d)
  | 12 => .ok (.siaddsN32 pb pa b a d)
  | 13 => .ok (.sisubsN32 pb pa b a d)
  | _ => .error .unassigned

/-- Function codes of major opcode 0x41, format 3R (R84). -/
def dec41 (fn : Nat) (pb pa : Bool) (b a d : Reg) : Except DecodeError Instr :=
  match fn with
  | 0 => .ok (.sand pb pa b a d)
  | 1 => .ok (.sor pb pa b a d)
  | 2 => .ok (.sxor pb pa b a d)
  | 3 => .ok (.sandn pb pa b a d)
  | 4 => .ok (.sshl pb pa b a d)
  | 5 => .ok (.sshr pb pa b a d)
  | 6 => .ok (.ssar pb pa b a d)
  | 7 => .ok (.srol pb pa b a d)
  | 8 => need (!pb && b == 0) (.spopc pa a d)
  | 9 => need (!pb && b == 0) (.sclz pa a d)
  | 10 => need (!pb && b == 0) (.sbrev pa a d)
  | _ => .error .unassigned

/-- Function codes of major opcode 0x42, format 3R (R84). -/
def dec42 (fn : Nat) (pb pa : Bool) (b a d : Reg) : Except DecodeError Instr :=
  match fn with
  | 0 => .ok (.scmpEq pb pa b a d)
  | 1 => .ok (.scmpNe pb pa b a d)
  | 2 => .ok (.scmpLtI32 pb pa b a d)
  | 3 => .ok (.scmpLeI32 pb pa b a d)
  | 4 => .ok (.scmpLtN32 pb pa b a d)
  | 5 => .ok (.scmpLeN32 pb pa b a d)
  | _ => .error .unassigned

/-- Major opcodes of format 3R. SEL takes its predicate from fn[2:0] and its sense from fn[3] (R83). -/
def dec3R (op : Nat) (fn : BitVec 4) (pb pa : Bool) (b a d : Reg) : Except DecodeError Instr :=
  match op with
  | 0x00 => dec00 fn.toNat pb pa b a d
  | 0x01 => dec01 fn.toNat pb pa b a d
  | 0x02 => dec02 fn.toNat pb pa b a d
  | 0x03 => .ok (if fn.getLsbD 3 then .selN (fn.extractLsb' 0 3) pb pa b a d else .sel (fn.extractLsb' 0 3) pb pa b a d)
  | 0x08 => dec08 fn.toNat pb pa b a d
  | 0x13 => dec13 fn.toNat pb pa b a d
  | 0x14 => dec14 fn.toNat pb pa b a d
  | 0x16 => dec16 fn.toNat pb pa b a d
  | 0x19 => dec19 fn.toNat pb pa b a d
  | 0x1a => dec1A fn.toNat pb pa b a d
  | 0x1c => dec1C fn.toNat pb pa b a d
  | 0x40 => dec40 fn.toNat pb pa b a d
  | 0x41 => dec41 fn.toNat pb pa b a d
  | 0x42 => dec42 fn.toNat pb pa b a d
  | _ => .error .unassigned

/-- Major opcodes of format 4R (R83, R84). -/
def dec4R (op : Nat) (c b a d : Reg) : Except DecodeError Instr :=
  match op with
  | 0x04 => .ok (.imad c b a d)
  | 0x05 => .ok (.bfi c b a d)
  | 0x06 => need (c == 0) (.bfeN32 b a d)
  | 0x07 => need (c == 0) (.bfeI32 b a d)
  | 0x15 => .ok (.fmaF32 c b a d)
  | 0x17 => .ok (.hfmaF16 c b a d)
  | 0x18 => .ok (.hfmaBf16 c b a d)
  | 0x46 => .ok (.simad c b a d)
  | _ => .error .unassigned

/-- Major opcodes of format I (R83, R84). -/
def decI (op : Nat) (imm : BitVec 11) (pa : Bool) (a d : Reg) : Except DecodeError Instr :=
  match op with
  | 0x09 => .ok (.iaddi imm pa a d)
  | 0x0a => .ok (.andi imm pa a d)
  | 0x0b => .ok (.ori imm pa a d)
  | 0x0c => .ok (.xori imm pa a d)
  | 0x0d => need (imm.extractLsb' 5 6 == 0) (.shli (imm.extractLsb' 0 5) pa a d)
  | 0x0e => need (imm.extractLsb' 5 6 == 0) (.shri (imm.extractLsb' 0 5) pa a d)
  | 0x0f => need (imm.extractLsb' 5 6 == 0) (.sari (imm.extractLsb' 0 5) pa a d)
  | 0x10 => need (!pa && a == 0) (.movi imm d)
  | 0x11 => .ok (.sloi imm pa a d)
  | 0x12 => .ok (.imuli imm pa a d)
  | 0x43 => .ok (.siaddi imm pa a d)
  | 0x44 => need (!pa && a == 0) (.smovi imm d)
  | 0x45 => .ok (.ssloi imm pa a d)
  | _ => .error .unassigned

/-- Major opcodes of format B (R83). -/
def decB (op : Nat) (disp : BitVec 21) (k : KReg) : Except DecodeError Instr :=
  match op with
  | 0x1e => .ok (.brt disp k)
  | 0x1f => need (k != 0) (.brf disp k)
  | 0x20 => need (k == 0) (.call disp)
  | _ => .error .unassigned

/-- Major opcodes of format M (R84, R85). -/
def decM (op : Nat) (po : Bool) (disp : BitVec 7) (base : CReg) (o d : Reg) : Except DecodeError Instr :=
  match op with
  | 0x47 => .ok (.ldu32 po disp base o d)
  | 0x61 => .ok (.ld32 po disp base o d)
  | 0x62 => .ok (.ld64 po disp base o d)
  | 0x63 => .ok (.ld128 po disp base o d)
  | 0x64 => .ok (.st32 po disp base o d)
  | 0x65 => .ok (.st64 po disp base o d)
  | 0x66 => .ok (.st128 po disp base o d)
  | 0x67 => .ok (.ld32Quad po disp base o d)
  | 0x68 => .ok (.st32Quad po disp base o d)
  | 0x69 => .ok (.cld po disp base o d)
  | 0x6a => .ok (.cst po disp base o d)
  | 0x6b => need (base == 0 || base == 1) (.lds32 po disp (base == 1) o d)
  | 0x6c => need (base == 0 || base == 1) (.sts32 po disp (base == 1) o d)
  | _ => .error .unassigned

/-- Predicate operations 0x1B (R83). -/
def dec1B (fn : Nat) (a b : Reg) : Except DecodeError Instr :=
  match fn with
  | 0x000 => need (hi3 b) (.kand (hi3of a) (lo3 a) (lo3 b))
  | 0x001 => need (hi3 b) (.kor (hi3of a) (lo3 a) (lo3 b))
  | 0x002 => need (hi3 b) (.kxor (hi3of a) (lo3 a) (lo3 b))
  | 0x003 => need (hi3 b) (.kandn (hi3of a) (lo3 a) (lo3 b))
  | 0x004 => need (hi3 a && hi3 b) (.knot (lo3 a) (lo3 b))
  | _ => .error .unassigned

/-- Control 0x1D below 0x100 (R83). -/
def dec1Dlow (fn : Nat) (a b : Reg) : Except DecodeError Instr :=
  match fn with
  | 0x000 => need (a == 0 && b == 0) (.exit_)
  | 0x001 => need (a == 0 && b == 0) (.yield)
  | 0x002 => need (b == 0) (.jmpr a)
  | _ => .error .unassigned

/-- Control operations 0x1D: JOIN n is fn 0x100 to 0x1FF (R83). -/
def dec1D (fn : BitVec 12) (a b : Reg) : Except DecodeError Instr :=
  if fn.extractLsb' 8 4 == 1 then need (a == 0 && b == 0) (.join (fn.extractLsb' 0 8)) else dec1Dlow fn.toNat a b

/-- Moves between lanes and uniform registers (R84). -/
def dec48low (fn : Nat) (a b : Reg) : Except DecodeError Instr :=
  match fn with
  | 0x000 => .ok (.movVs a b)
  | 0x001 => .ok (.movSv a b)
  | _ => .error .unassigned

/-- Major opcode 0x48: RDLANE is fn 0x040 to 0x05F (R84). -/
def dec48 (fn : BitVec 12) (a b : Reg) : Except DecodeError Instr :=
  if fn.extractLsb' 5 7 == 2 then .ok (.rdlane (fn.extractLsb' 0 5) a b) else dec48low fn.toNat a b

/-- Capability group 0x60, subop fn[11:6], x = fn[5:0] (R86). -/
def dec60sub (sub : Nat) (x a b : Reg) : Except DecodeError Instr :=
  match sub with
  | 0x000 => need (x == 0 && hi2 a && hi2 b) (.cmov (lo4 a) (lo4 b))
  | 0x001 => need (hi2 a && hi2 b) (.csetb x (lo4 a) (lo4 b))
  | 0x002 => need (hi2 a && hi2 b) (.candp x (lo4 a) (lo4 b))
  | 0x003 => need (hi2 a && hi2 b) (.cseal x (lo4 a) (lo4 b))
  | 0x004 => need (x == 0 && hi2 a && hi2 b) (.cunseal (lo4 a) (lo4 b))
  | 0x005 => need (hi2 a && hi2 b) (.cdeleg x (lo4 a) (lo4 b))
  | 0x006 => need (a == 0 && hi2 b) (.croot x (lo4 b))
  | 0x007 => need (x == 0 && hi2 a) (.cgetBase (lo4 a) b)
  | 0x008 => need (x == 0 && hi2 a) (.cgetLen (lo4 a) b)
  | 0x009 => need (x == 0 && hi2 a) (.cgetPerm (lo4 a) b)
  | 0x00a => need (x == 0 && hi2 a) (.cgetType (lo4 a) b)
  | 0x00b => need (x == 0 && hi2 a) (.cgetTag (lo4 a) b)
  | 0x00c => need (x == 0 && hi2 a) (.cgetColour (lo4 a) b)
  | 0x00d => need (x == 0 && hi2 a) (.cgetGen (lo4 a) b)
  | 0x00e => need (x == 0 && hi2 a && hi2 b) (.cclrtag (lo4 a) (lo4 b))
  | 0x00f => need (x == 0 && hi2 a) (.ctoq (lo4 a) b)
  | 0x010 => need (x == 0 && hi2 b) (.cfromq a (lo4 b))
  | 0x011 => need (hi2 x && hi2 a) (.ccover (lo4 x) (lo4 a) b)
  | _ => .error .unassigned

/-- Memory group 0x6D (R87). -/
def dec6D (sub : Nat) (f : BitVec 4) (a b : Reg) : Except DecodeError Instr :=
  match sub with
  | 0x000 => .ok (.ldN8 f a b)
  | 0x001 => .ok (.ldI8 f a b)
  | 0x002 => .ok (.ldN16 f a b)
  | 0x003 => .ok (.ldI16 f a b)
  | 0x004 => .ok (.st8 f a b)
  | 0x005 => .ok (.st16 f a b)
  | 0x008 => .ok (.ldN8Quad f a b)
  | 0x009 => .ok (.ldI8Quad f a b)
  | 0x00a => .ok (.ldN16Quad f a b)
  | 0x00b => .ok (.ldI16Quad f a b)
  | 0x00c => .ok (.st8Quad f a b)
  | 0x00d => .ok (.st16Quad f a b)
  | 0x010 => .ok (.ld64Quad f a b)
  | 0x011 => .ok (.st64Quad f a b)
  | 0x012 => .ok (.ld128Quad f a b)
  | 0x013 => .ok (.st128Quad f a b)
  | 0x020 => .ok (.atomAdd f a b)
  | 0x021 => .ok (.atomMinI32 f a b)
  | 0x022 => .ok (.atomMaxI32 f a b)
  | 0x023 => .ok (.atomMinN32 f a b)
  | 0x024 => .ok (.atomMaxN32 f a b)
  | 0x025 => .ok (.atomAnd f a b)
  | 0x026 => .ok (.atomOr f a b)
  | 0x027 => .ok (.atomXor f a b)
  | 0x028 => .ok (.atomSwap f a b)
  | 0x029 => .ok (.atomCas f a b)
  | 0x02a => .ok (.atomAddF32 f a b)
  | 0x030 => .ok (.redAdd f a b)
  | 0x031 => .ok (.redMinI32 f a b)
  | 0x032 => .ok (.redMaxI32 f a b)
  | 0x033 => .ok (.redMinN32 f a b)
  | 0x034 => .ok (.redMaxN32 f a b)
  | 0x035 => .ok (.redAnd f a b)
  | 0x036 => .ok (.redOr f a b)
  | 0x037 => .ok (.redXor f a b)
  | 0x03a => .ok (.redAddF32 f a b)
  | 0x040 => need (f == 0 || f == 1) (.atomsAdd (f == 1) a b)
  | 0x041 => need (f == 0 || f == 1) (.atomsMinI32 (f == 1) a b)
  | 0x042 => need (f == 0 || f == 1) (.atomsMaxI32 (f == 1) a b)
  | 0x043 => need (f == 0 || f == 1) (.atomsMinN32 (f == 1) a b)
  | 0x044 => need (f == 0 || f == 1) (.atomsMaxN32 (f == 1) a b)
  | 0x045 => need (f == 0 || f == 1) (.atomsAnd (f == 1) a b)
  | 0x046 => need (f == 0 || f == 1) (.atomsOr (f == 1) a b)
  | 0x047 => need (f == 0 || f == 1) (.atomsXor (f == 1) a b)
  | 0x048 => need (f == 0 || f == 1) (.atomsSwap (f == 1) a b)
  | 0x049 => need (f == 0 || f == 1) (.atomsCas (f == 1) a b)
  | 0x04a => need (f == 0 || f == 1) (.atomsAddF32 (f == 1) a b)
  | 0x050 => need (b == 0) (.prefetch f a)
  | 0x051 => .ok (.waitmemNe f a b)
  | 0x052 => .ok (.waitmemEq f a b)
  | 0x054 => need (f == 0 && b == 0) (.spempty a)
  | 0x055 => need (f == 0 && b == 0) (.spfill a)
  | 0x058 => .ok (.shape f a b)
  | _ => .error .unassigned

/-- Tile, matrix and accumulator group 0x6F (R89). -/
def dec6F (sub : Nat) (f : BitVec 4) (a b : Reg) : Except DecodeError Instr :=
  match sub with
  | 0x000 => need (f == 0 && hi3 a) (.tcfg (lo3 a) b)
  | 0x001 => need (hi3 a) (.tld f (lo3 a) b)
  | 0x002 => need (hi3 a) (.tst f (lo3 a) b)
  | 0x008 => need (f == 0 && hi2 b) (.mma (hi3of a) (lo3 a) (lo4 b))
  | 0x009 => need (hi2 b) (.mmaq f (hi3of a) (lo3 a) (lo4 b))
  | 0x00a => .ok (.mmaS f a (b.extractLsb' 4 2) (lo4 b))
  | 0x010 => need (f == 0 && hi2 a && b == 0) (.accAlloc (lo4 a))
  | 0x011 => need (f == 0 && hi2 a && b == 0) (.accFree (lo4 a))
  | 0x012 => need (hi2 a) (.accRd f (lo4 a) b)
  | 0x013 => need (hi2 a) (.accWr f (lo4 a) b)
  | 0x014 => need (f == 0 && hi2 a && b == 0) (.accZero (lo4 a))
  | 0x015 => need (hi2 a) (.accDrain f (lo4 a) b)
  | 0x016 => need (hi2 a) (.accDrainAdd f (lo4 a) b)
  | 0x017 => need (f == 0 && hi2 a && hi3 b) (.accQuant (lo4 a) (lo3 b))
  | _ => .error .unassigned

/-- Launch and message group 0x72 (R91). -/
def dec72 (sub : Nat) (f : BitVec 4) (a b : Reg) : Except DecodeError Instr :=
  match sub with
  | 0x000 => need (b == 0) (.launch f a)
  | 0x001 => .ok (.graphTrig f a b)
  | 0x002 => need (f == 0) (.amsend a b)
  | _ => .error .unassigned

/-- Partition group 0x73 (R91). -/
def dec73 (sub : Nat) (f : BitVec 4) (a b : Reg) : Except DecodeError Instr :=
  match sub with
  | 0x000 => .ok (.hcmd f a b)
  | 0x001 => need (f == 0 && a == 0 && b == 0) (.sweep)
  | 0x002 => need (f == 0 && b == 0) (.phalt a)
  | 0x003 => need (f == 0 && b == 0) (.presume a)
  | 0x004 => need (f == 0 && b == 0) (.resync a)
  | _ => .error .unassigned

/-- Counter group 0x74 (R91). -/
def dec74 (sub : Nat) (f : BitVec 4) (a b : Reg) : Except DecodeError Instr :=
  match sub with
  | 0x000 => need (b == 0) (.esign f a)
  | 0x001 => need (f == 0 && a == 0) (.psnap b)
  | _ => .error .unassigned

/-- Barriers and FENCE.SHAPE (R88). -/
def dec6Elow (fn : Nat) (a b : Reg) : Except DecodeError Instr :=
  match fn with
  | 0x020 => need (a == 0 && b == 0) (.fenceShape)
  | 0x040 => need (b == 0) (.barArv (a.extractLsb' 4 2) (a.extractLsb' 0 4))
  | 0x041 => .ok (.barWait (a.extractLsb' 4 2) (a.extractLsb' 0 4) b)
  | 0x042 => .ok (.barSync (a.extractLsb' 4 2) (a.extractLsb' 0 4) b)
  | 0x043 => .ok (.barExp (a.extractLsb' 4 2) (a.extractLsb' 0 4) b)
  | _ => .error .unassigned

/-- Fence and barrier group 0x6E: fn 0x000 to 0x01F is FENCE, scopes 1 to 5 (R88). -/
def dec6E (fn : BitVec 12) (a b : Reg) : Except DecodeError Instr :=
  let scope := fn.extractLsb' 2 3
  if fn.extractLsb' 5 7 == 0 then
    if scope == 0 || scope == 6 || scope == 7 then .error .unassigned
    else need (a == 0 && b == 0) (.fence scope (fn.extractLsb' 0 2))
  else dec6Elow fn.toNat a b

/-- Flue group 0x70: capability fn[11:8], .ord fn[7], ordering fn[6:5], operation fn[4:0] (R90). An ordering value or
an .ord bit that the operation does not take is a reserved field (R281). -/
def dec70 (fn : BitVec 12) (a b : Reg) : Except DecodeError Instr :=
  let c := fn.extractLsb' 8 4; let ord := fn.getLsbD 7; let o := fn.extractLsb' 5 2; let op := fn.extractLsb' 0 3
  match (fn.extractLsb' 3 2).toNat, op.toNat with
  | 0, 0 => need (!o.getLsbD 0 && hi2 b) (.flueBoard c ord (o.getLsbD 1) a (lo4 b))
  | 0, 1 => need (!o.getLsbD 0 && hi2 b) (.flueAlight c ord (o.getLsbD 1) a (lo4 b))
  | 0, 2 => need (!o.getLsbD 1) (.fluePeek c ord (o.getLsbD 0) a b)
  | 0, 3 => need (!o.getLsbD 1) (.flueWaitEq c ord (o.getLsbD 0) a b)
  | 0, 4 => need (!o.getLsbD 1) (.flueWaitNe c ord (o.getLsbD 0) a b)
  | 0, 5 => need (!ord && o == 0 && a == 0) (.flueRev c b)
  | 0, _ => .error .unassigned
  | 1, _ => need (o != 3) (.flueCap c ord o op a b)
  | 2, _ => need (o != 3) (.flueCapS2 c ord o op a b)
  | _, _ => need (o != 3) (.flueCapS4 c ord o op a b)

/-- Queue group 0x71 (R91). -/
def dec71sub (sub : Nat) (w q : BitVec 2) (a b : Reg) : Except DecodeError Instr :=
  match sub with
  | 0x000 => need (b == 0) (.qw w q a)
  | 0x001 => need (w == 0 && a == 0 && b == 0) (.qgo q)
  | 0x002 => need (w == 0 && a == 0 && hi2 b) (.qgoC q (lo4 b))
  | 0x003 => need (w == 0 && (a == 0 || a == 1)) (.qrd q (a == 1) b)
  | 0x004 => need (w == 0 && a == 0) (.qstat q b)
  | _ => .error .unassigned

/-- System operations below 0x100 (R91). -/
def dec77low (fn : Nat) : Except DecodeError Instr :=
  match fn with
  | 0x000 => .ok (.tret)
  | 0x001 => .ok (.ifence)
  | 0x002 => .ok (.bkpt)
  | _ => .error .unassigned

/-- System group 0x77: SYSCALL n is fn 0x100 to 0x1FF, HVCALL n fn 0x200 to 0x2FF; a and b are reserved (R91). -/
def dec77 (fn : BitVec 12) (a b : Reg) : Except DecodeError Instr :=
  let i := match (fn.extractLsb' 8 4).toNat with
    | 1 => Except.ok (Instr.syscall (fn.extractLsb' 0 8))
    | 2 => Except.ok (Instr.hvcall (fn.extractLsb' 0 8))
    | _ => dec77low fn.toNat
  i.bind fun i => need (a == 0 && b == 0) i

/-- MFCR: fn12 is the index, a selects the destination bank (R85). -/
def decMfcr (fn : BitVec 12) (a b : Reg) : Except DecodeError Instr :=
  need (a == 0 || a == 1) (.mfcr fn (a == 1) b)

/-- MTCR: fn12 is the index, b is reserved (R85). -/
def decMtcr (fn : BitVec 12) (a b : Reg) : Except DecodeError Instr :=
  need (b == 0) (.mtcr fn a)

/-- Major opcodes of format X (R83 to R85). -/
def decX (op : Nat) (fn : BitVec 12) (a b : Reg) : Except DecodeError Instr :=
  let f := fn.extractLsb' 8 4; let sub := (fn.extractLsb' 0 8).toNat
  match op with
  | 0x1B => dec1B fn.toNat a b
  | 0x1D => dec1D fn a b
  | 0x48 => dec48 fn a b
  | 0x60 => dec60sub (fn.extractLsb' 6 6).toNat (fn.extractLsb' 0 6) a b
  | 0x6D => dec6D sub f a b
  | 0x6E => dec6E fn a b
  | 0x6F => dec6F sub f a b
  | 0x70 => dec70 fn a b
  | 0x71 => dec71sub sub (fn.extractLsb' 10 2) (fn.extractLsb' 8 2) a b
  | 0x72 => dec72 sub f a b
  | 0x73 => dec73 sub f a b
  | 0x74 => dec74 sub f a b
  | 0x75 => decMfcr fn a b
  | 0x76 => decMtcr fn a b
  | 0x77 => dec77 fn a b
  | _ => .error .unassigned

/-- The 16-bit operations (R81, R82). -/
def decShortOp (op : Nat) (i : Bool) (s d : BitVec 5) : Except DecodeError Instr :=
  match op with
  | 0 => .ok (.iaddShort i s d)
  | 1 => .ok (.isubShort i s d)
  | 2 => .ok (.imulShort i s d)
  | 3 => .ok (.andShort i s d)
  | 4 => .ok (.orShort i s d)
  | 5 => .ok (.xorShort i s d)
  | 6 => .ok (.shlShort i s d)
  | 7 => .ok (.shrShort i s d)
  | 8 => .ok (.sarShort i s d)
  | 9 => .ok (if i then .moviShort s d else .movShort s d)
  | 10 => .ok (.iminShort i s d)
  | 11 => .ok (.imaxShort i s d)
  | 12 => need (!i) (.faddShort s d)
  | 13 => need (!i) (.fsubShort s d)
  | 14 => need (!i) (.fmulShort s d)
  | 15 => need (!i) (.fmaxShort s d)
  | _ => .error .unassigned

/-- One long word: the major opcode alone selects the format (R75). -/
def decodeLong (w : Word) : Except DecodeError Instr :=
  let op := (w.extractLsb' 1 7).toNat
  let d := w.extractLsb' 8 6; let a := w.extractLsb' 14 6; let b := w.extractLsb' 20 6
  if op == 0x1B || op == 0x1D || op == 0x48 || op == 0x60 || op ≥ 0x6D then decX op (w.extractLsb' 20 12) a d
  else if op == 0x1E || op == 0x1F || op == 0x20 then decB op (w.extractLsb' 11 21) (w.extractLsb' 8 3)
  else if op == 0x47 || op ≥ 0x61 then decM op (w.getLsbD 31) (w.extractLsb' 24 7) (w.extractLsb' 20 4) a d
  else if op == 4 || op == 5 || op == 6 || op == 7 || op == 0x15 || op == 0x17 || op == 0x18 || op == 0x46 then
    dec4R op (w.extractLsb' 26 6) b a d
  else if (9 ≤ op && op ≤ 0x12) || op == 0x43 || op == 0x44 || op == 0x45 then
    decI op (w.extractLsb' 21 11) (w.getLsbD 20) a d
  else dec3R op (w.extractLsb' 28 4) (w.getLsbD 27) (w.getLsbD 26) b a d

/-- One 16-bit parcel (R73, R81). -/
def decodeShort (p : BitVec 16) : Except DecodeError Instr :=
  if p == 0 then .error .zeroParcel
  else decShortOp (p.extractLsb' 1 4).toNat (p.getLsbD 15) (p.extractLsb' 10 5) (p.extractLsb' 5 5)

/-- The fields of a prefix word (R77). -/
def prefixOf (w : Word) : Prefix :=
  { predicate := w.extractLsb' 29 3, negate := w.getLsbD 28, kind := w.extractLsb' 26 2, modA := w.extractLsb' 24 2,
    amtA := w.extractLsb' 19 5, modB := w.extractLsb' 17 2, amtB := w.extractLsb' 12 5, scope := w.extractLsb' 9 3 }

/-- What a prefix may do to an instruction (R78, R216, R136, R150). -/
inductive PrefixUse where
  /-- 16-bit, B and X instructions other than 0x6D: no prefix at all. -/
  | none
  /-- Every field must be 0: the scalar region with major opcode 0x48 (R110; log 90), major opcode 0x1C, SHAPE. -/
  | bare
  /-- A lane instruction: predicate; rounding by KIND; modifiers on source a and on source b. -/
  | lane (rounds a b : Bool)
  /-- A memory instruction: which KIND values, whether SCOPE, whether a predicate. -/
  | mem (acq rel ar hasScope pred : Bool)
  deriving DecidableEq, Repr

def prefixUse (i : Instr) : PrefixUse :=
  match i with
  | .iadd _ _ _ _ _ => .lane false true true
  | .isub _ _ _ _ _ => .lane false true true
  | .imul _ _ _ _ _ => .lane false true true
  | .imulhI32 _ _ _ _ _ => .lane false true true
  | .imulhN32 _ _ _ _ _ => .lane false true true
  | .iminI32 _ _ _ _ _ => .lane false true true
  | .iminN32 _ _ _ _ _ => .lane false true true
  | .imaxI32 _ _ _ _ _ => .lane false true true
  | .imaxN32 _ _ _ _ _ => .lane false true true
  | .iabsI32 _ _ _ => .lane false true false
  | .iaddsI32 _ _ _ _ _ => .lane false true true
  | .isubsI32 _ _ _ _ _ => .lane false true true
  | .iaddsN32 _ _ _ _ _ => .lane false true true
  | .isubsN32 _ _ _ _ _ => .lane false true true
  | .and_ _ _ _ _ _ => .lane false true true
  | .or_ _ _ _ _ _ => .lane false true true
  | .xor_ _ _ _ _ _ => .lane false true true
  | .andn _ _ _ _ _ => .lane false true true
  | .shl _ _ _ _ _ => .lane false true true
  | .shr _ _ _ _ _ => .lane false true true
  | .sar _ _ _ _ _ => .lane false true true
  | .rol _ _ _ _ _ => .lane false true true
  | .popc _ _ _ => .lane false true false
  | .clz _ _ _ => .lane false true false
  | .brev _ _ _ => .lane false true false
  | .icmpEq _ _ _ _ _ => .lane false true true
  | .icmpNe _ _ _ _ _ => .lane false true true
  | .icmpLtI32 _ _ _ _ _ => .lane false true true
  | .icmpLeI32 _ _ _ _ _ => .lane false true true
  | .icmpLtN32 _ _ _ _ _ => .lane false true true
  | .icmpLeN32 _ _ _ _ _ => .lane false true true
  | .fcmpEq _ _ _ _ _ => .lane false true true
  | .fcmpNe _ _ _ _ _ => .lane false true true
  | .fcmpLt _ _ _ _ _ => .lane false true true
  | .fcmpLe _ _ _ _ _ => .lane false true true
  | .fcmpUn _ _ _ _ _ => .lane false true true
  | .sel _ _ _ _ _ _ => .lane false true true
  | .selN _ _ _ _ _ _ => .lane false true true
  | .imad _ _ _ _ => .lane false false false
  | .bfi _ _ _ _ => .lane false false false
  | .bfeN32 _ _ _ => .lane false false false
  | .bfeI32 _ _ _ => .lane false false false
  | .iaddI64 _ _ _ _ _ => .lane false true true
  | .isubI64 _ _ _ _ _ => .lane false true true
  | .shlI64 _ _ _ _ _ => .lane false true true
  | .shrN64 _ _ _ _ _ => .lane false true true
  | .sarI64 _ _ _ _ _ => .lane false true true
  | .imulwI32 _ _ _ _ _ => .lane false true true
  | .imulwN32 _ _ _ _ _ => .lane false true true
  | .iminI64 _ _ _ _ _ => .lane false true true
  | .imaxI64 _ _ _ _ _ => .lane false true true
  | .iaddi _ _ _ _ => .lane false false false
  | .andi _ _ _ _ => .lane false false false
  | .ori _ _ _ _ => .lane false false false
  | .xori _ _ _ _ => .lane false false false
  | .shli _ _ _ _ => .lane false false false
  | .shri _ _ _ _ => .lane false false false
  | .sari _ _ _ _ => .lane false false false
  | .movi _ _ => .lane false false false
  | .sloi _ _ _ _ => .lane false false false
  | .imuli _ _ _ _ => .lane false false false
  | .mov _ _ _ => .lane false true false
  | .sextI8 _ _ _ => .lane false true false
  | .sextI16 _ _ _ => .lane false true false
  | .zextN8 _ _ _ => .lane false true false
  | .zextN16 _ _ _ => .lane false true false
  | .fadd _ _ _ _ _ => .lane true true true
  | .fsub _ _ _ _ _ => .lane true true true
  | .fmul _ _ _ _ _ => .lane true true true
  | .fmin _ _ _ _ _ => .lane false true true
  | .fmax _ _ _ _ _ => .lane false true true
  | .fdiv _ _ _ _ _ => .lane true true true
  | .fabs _ _ _ => .lane false true false
  | .fneg _ _ _ => .lane false true false
  | .fsqrt _ _ _ => .lane true true false
  | .frcp _ _ _ => .lane false true false
  | .frsq _ _ _ => .lane false true false
  | .fexp2 _ _ _ => .lane false true false
  | .flog2 _ _ _ => .lane false true false
  | .fsin _ _ _ => .lane false true false
  | .fcos _ _ _ => .lane false true false
  | .fmaF32 _ _ _ _ => .lane true false false
  | .haddF16 _ _ _ _ _ => .lane true true true
  | .hsubF16 _ _ _ _ _ => .lane true true true
  | .hmulF16 _ _ _ _ _ => .lane true true true
  | .hminF16 _ _ _ _ _ => .lane false true true
  | .hmaxF16 _ _ _ _ _ => .lane false true true
  | .haddBf16 _ _ _ _ _ => .lane true true true
  | .hsubBf16 _ _ _ _ _ => .lane true true true
  | .hmulBf16 _ _ _ _ _ => .lane true true true
  | .hminBf16 _ _ _ _ _ => .lane false true true
  | .hmaxBf16 _ _ _ _ _ => .lane false true true
  | .hfmaF16 _ _ _ _ => .lane true false false
  | .hfmaBf16 _ _ _ _ => .lane true false false
  | .cvtF32I32 _ _ _ => .lane true true false
  | .cvtF32N32 _ _ _ => .lane true true false
  | .cvtI32F32 _ _ _ => .lane true true false
  | .cvtN32F32 _ _ _ => .lane true true false
  | .cvtF16F32 _ _ _ => .lane true true false
  | .cvtBf16F32 _ _ _ => .lane true true false
  | .cvtF32F16 _ _ _ => .lane false true false
  | .cvtF32Bf16 _ _ _ => .lane false true false
  | .frnd _ _ _ => .lane true true false
  | .quantSb7 _ _ _ => .lane false true false
  | .quantSb4 _ _ _ => .lane false true false
  | .quantSb2 _ _ _ => .lane false true false
  | .deqSb7 _ _ _ _ _ => .lane false true true
  | .deqSb4 _ _ _ _ _ => .lane false true true
  | .deqSb2 _ _ _ _ _ => .lane false true true
  | .kand _ _ _ => .none
  | .kor _ _ _ => .none
  | .kxor _ _ _ => .none
  | .kandn _ _ _ => .none
  | .knot _ _ => .none
  | .lsel _ _ _ _ _ => .bare
  | .lstep _ _ _ _ _ => .bare
  | .lstepW _ _ _ _ _ => .bare
  | .lmirror _ _ _ _ _ => .bare
  | .kmask _ _ => .bare
  | .kcount _ _ => .bare
  | .krank _ _ => .bare
  | .lkin _ _ _ => .bare
  | .lfoldAdd _ _ _ => .bare
  | .lfoldMinI32 _ _ _ => .bare
  | .lfoldMaxI32 _ _ _ => .bare
  | .lfoldAnd _ _ _ => .bare
  | .lfoldOr _ _ _ => .bare
  | .lfoldXor _ _ _ => .bare
  | .lfoldMinN32 _ _ _ => .bare
  | .lfoldMaxN32 _ _ _ => .bare
  | .exit_ => .none
  | .yield => .none
  | .jmpr _ => .none
  | .join _ => .none
  | .brt _ _ => .none
  | .brf _ _ => .none
  | .call _ => .none
  | .siadd _ _ _ _ _ => .bare
  | .sisub _ _ _ _ _ => .bare
  | .simul _ _ _ _ _ => .bare
  | .simulhI32 _ _ _ _ _ => .bare
  | .simulhN32 _ _ _ _ _ => .bare
  | .siminI32 _ _ _ _ _ => .bare
  | .siminN32 _ _ _ _ _ => .bare
  | .simaxI32 _ _ _ _ _ => .bare
  | .simaxN32 _ _ _ _ _ => .bare
  | .siabsI32 _ _ _ => .bare
  | .siaddsI32 _ _ _ _ _ => .bare
  | .sisubsI32 _ _ _ _ _ => .bare
  | .siaddsN32 _ _ _ _ _ => .bare
  | .sisubsN32 _ _ _ _ _ => .bare
  | .sand _ _ _ _ _ => .bare
  | .sor _ _ _ _ _ => .bare
  | .sxor _ _ _ _ _ => .bare
  | .sandn _ _ _ _ _ => .bare
  | .sshl _ _ _ _ _ => .bare
  | .sshr _ _ _ _ _ => .bare
  | .ssar _ _ _ _ _ => .bare
  | .srol _ _ _ _ _ => .bare
  | .spopc _ _ _ => .bare
  | .sclz _ _ _ => .bare
  | .sbrev _ _ _ => .bare
  | .scmpEq _ _ _ _ _ => .bare
  | .scmpNe _ _ _ _ _ => .bare
  | .scmpLtI32 _ _ _ _ _ => .bare
  | .scmpLeI32 _ _ _ _ _ => .bare
  | .scmpLtN32 _ _ _ _ _ => .bare
  | .scmpLeN32 _ _ _ _ _ => .bare
  | .siaddi _ _ _ _ => .bare
  | .smovi _ _ => .bare
  | .ssloi _ _ _ _ => .bare
  | .simad _ _ _ _ => .bare
  | .ldu32 _ _ _ _ _ => .mem true false false true false
  | .movVs _ _ => .bare
  | .movSv _ _ => .bare
  | .rdlane _ _ _ => .bare
  | .iaddShort _ _ _ => .none
  | .isubShort _ _ _ => .none
  | .imulShort _ _ _ => .none
  | .andShort _ _ _ => .none
  | .orShort _ _ _ => .none
  | .xorShort _ _ _ => .none
  | .shlShort _ _ _ => .none
  | .shrShort _ _ _ => .none
  | .sarShort _ _ _ => .none
  | .movShort _ _ => .none
  | .moviShort _ _ => .none
  | .iminShort _ _ _ => .none
  | .imaxShort _ _ _ => .none
  | .faddShort _ _ => .none
  | .fsubShort _ _ => .none
  | .fmulShort _ _ => .none
  | .fmaxShort _ _ => .none
  | .cmov _ _ => .none
  | .csetb _ _ _ => .none
  | .candp _ _ _ => .none
  | .cseal _ _ _ => .none
  | .cunseal _ _ => .none
  | .cdeleg _ _ _ => .none
  | .croot _ _ => .none
  | .cgetBase _ _ => .none
  | .cgetLen _ _ => .none
  | .cgetPerm _ _ => .none
  | .cgetType _ _ => .none
  | .cgetTag _ _ => .none
  | .cgetColour _ _ => .none
  | .cgetGen _ _ => .none
  | .cclrtag _ _ => .none
  | .ctoq _ _ => .none
  | .cfromq _ _ => .none
  | .ccover _ _ _ => .none
  | .ld32 _ _ _ _ _ => .mem true false false true true
  | .ld64 _ _ _ _ _ => .mem true false false true true
  | .ld128 _ _ _ _ _ => .mem true false false true true
  | .st32 _ _ _ _ _ => .mem false true false true true
  | .st64 _ _ _ _ _ => .mem false true false true true
  | .st128 _ _ _ _ _ => .mem false true false true true
  | .ld32Quad _ _ _ _ _ => .mem true false false true true
  | .st32Quad _ _ _ _ _ => .mem false true false true true
  | .cld _ _ _ _ _ => .mem true false false true true
  | .cst _ _ _ _ _ => .mem false true false true true
  | .lds32 _ _ _ _ _ => .mem true false false true true
  | .sts32 _ _ _ _ _ => .mem false true false true true
  | .ldN8 _ _ _ => .mem true false false true true
  | .ldI8 _ _ _ => .mem true false false true true
  | .ldN16 _ _ _ => .mem true false false true true
  | .ldI16 _ _ _ => .mem true false false true true
  | .st8 _ _ _ => .mem false true false true true
  | .st16 _ _ _ => .mem false true false true true
  | .ldN8Quad _ _ _ => .mem true false false true true
  | .ldI8Quad _ _ _ => .mem true false false true true
  | .ldN16Quad _ _ _ => .mem true false false true true
  | .ldI16Quad _ _ _ => .mem true false false true true
  | .st8Quad _ _ _ => .mem false true false true true
  | .st16Quad _ _ _ => .mem false true false true true
  | .ld64Quad _ _ _ => .mem true false false true true
  | .st64Quad _ _ _ => .mem false true false true true
  | .ld128Quad _ _ _ => .mem true false false true true
  | .st128Quad _ _ _ => .mem false true false true true
  | .atomAdd _ _ _ => .mem true true true true true
  | .atomMinI32 _ _ _ => .mem true true true true true
  | .atomMaxI32 _ _ _ => .mem true true true true true
  | .atomMinN32 _ _ _ => .mem true true true true true
  | .atomMaxN32 _ _ _ => .mem true true true true true
  | .atomAnd _ _ _ => .mem true true true true true
  | .atomOr _ _ _ => .mem true true true true true
  | .atomXor _ _ _ => .mem true true true true true
  | .atomSwap _ _ _ => .mem true true true true true
  | .atomCas _ _ _ => .mem true true true true true
  | .atomAddF32 _ _ _ => .mem true true true true true
  | .redAdd _ _ _ => .mem false true false true true
  | .redMinI32 _ _ _ => .mem false true false true true
  | .redMaxI32 _ _ _ => .mem false true false true true
  | .redMinN32 _ _ _ => .mem false true false true true
  | .redMaxN32 _ _ _ => .mem false true false true true
  | .redAnd _ _ _ => .mem false true false true true
  | .redOr _ _ _ => .mem false true false true true
  | .redXor _ _ _ => .mem false true false true true
  | .redAddF32 _ _ _ => .mem false true false true true
  | .atomsAdd _ _ _ => .mem true true true true true
  | .atomsMinI32 _ _ _ => .mem true true true true true
  | .atomsMaxI32 _ _ _ => .mem true true true true true
  | .atomsMinN32 _ _ _ => .mem true true true true true
  | .atomsMaxN32 _ _ _ => .mem true true true true true
  | .atomsAnd _ _ _ => .mem true true true true true
  | .atomsOr _ _ _ => .mem true true true true true
  | .atomsXor _ _ _ => .mem true true true true true
  | .atomsSwap _ _ _ => .mem true true true true true
  | .atomsCas _ _ _ => .mem true true true true true
  | .atomsAddF32 _ _ _ => .mem true true true true true
  | .prefetch _ _ => .mem false false false false true
  | .waitmemNe _ _ _ => .mem true false false true true
  | .waitmemEq _ _ _ => .mem true false false true true
  | .spempty _ => .mem false false false false true
  | .spfill _ => .mem false false false false true
  | .shape _ _ _ => .bare
  | .fence _ _ => .none
  | .fenceShape => .none
  | .barArv _ _ => .none
  | .barWait _ _ _ => .none
  | .barSync _ _ _ => .none
  | .barExp _ _ _ => .none
  | .tcfg _ _ => .none
  | .tld _ _ _ => .none
  | .tst _ _ _ => .none
  | .mma _ _ _ => .none
  | .mmaq _ _ _ _ => .none
  | .mmaS _ _ _ _ => .none
  | .accAlloc _ => .none
  | .accFree _ => .none
  | .accZero _ => .none
  | .accRd _ _ _ => .none
  | .accWr _ _ _ => .none
  | .accDrain _ _ _ => .none
  | .accDrainAdd _ _ _ => .none
  | .accQuant _ _ => .none
  | .flueBoard _ _ _ _ _ => .none
  | .flueAlight _ _ _ _ _ => .none
  | .fluePeek _ _ _ _ _ => .none
  | .flueWaitEq _ _ _ _ _ => .none
  | .flueWaitNe _ _ _ _ _ => .none
  | .flueRev _ _ => .none
  | .flueCap _ _ _ _ _ _ => .none
  | .flueCapS2 _ _ _ _ _ _ => .none
  | .flueCapS4 _ _ _ _ _ _ => .none
  | .qw _ _ _ => .none
  | .qgo _ => .none
  | .qgoC _ _ => .none
  | .qrd _ _ _ => .none
  | .qstat _ _ => .none
  | .launch _ _ => .none
  | .graphTrig _ _ _ => .none
  | .amsend _ _ => .none
  | .hcmd _ _ _ => .none
  | .sweep => .none
  | .phalt _ => .none
  | .presume _ => .none
  | .resync _ => .none
  | .esign _ _ => .none
  | .psnap _ => .none
  | .mfcr _ _ _ => .none
  | .mtcr _ _ => .none
  | .tret => .none
  | .ifence => .none
  | .bkpt => .none
  | .syscall _ => .none
  | .hvcall _ => .none
  | .joinHoldEnd _ _ => .none
  | .yieldRelease _ _ => .none
  | .progressBoundExpiry _ _ => .none
  | .splitWake _ _ => .none
  | .dispatch _ => .none
  | .blockPlacement _ => .none
  | .blockCompletion _ => .none
  | .graphRunStart _ _ => .none
  | .eviction _ => .none
  | .reinstatement _ => .none
  | .sliceEnd _ => .none
  | .trapEntry _ _ => .none
  | .blockHalt _ => .none
  | .loadReturn _ => .none
  | .accessRejection _ => .none
  | .homeSliceAccess _ _ _ => .none
  | .extentChangeCompletion _ => .none
  | .matrixStart _ => .none
  | .matrixCompletion _ => .none
  | .tileFill _ => .none
  | .drainDelivery _ => .none
  | .copy1d _ => .none
  | .copy2d _ => .none
  | .copytile _ => .none
  | .fill _ => .none
  | .seal _ => .none
  | .open_ _ => .none
  | .gather _ => .none
  | .scatter _ => .none
  | .send _ => .none
  | .recv _ => .none
  | .bcast _ => .none
  | .engineSectorDelivery _ => .none
  | .engineCommandCompletion _ => .none
  | .engineCommandFailure _ => .none
  | .fluePass _ => .none
  | .flueAlightCompletion _ => .none
  | .messageArrival _ _ => .none
  | .handlerSpawn _ => .none
  | .signedReadingWrite _ _ => .none
  | .reconfigurationListApply => .none
  | .sweepPass => .none
  | .sweepPassCompletion => .none
  | .hostSnoop _ _ _ => .none
  | .atsCompletion _ _ _ _ _ => .none
  | .atsInvalidation _ _ _ => .none
  | .pageRequestResponse _ _ _ => .none
  | .hostCxlMemAccess _ _ _ _ => .none
  | .hostRegisterWrite _ _ => .none
  | .evtailWrite _ => .none
  | .mailboxLaunch => .none
  | .mailboxGraphTrig => .none
  | .reconfigure => .none
  | .energyRead => .none
  | .attest => .none
  | .kemKey => .none
  | .keyLoad => .none
  | .channelResync => .none
  | .mode_ => .none
  | .migrateWrap => .none
  | .migrateUnwrap => .none
  | .pair => .none
  | .linkUp _ _ => .none
  | .linkLoss _ => .none
  | .deviceReset _ => .none
  | .perst => .none
  | .powerLoss _ => .none
  | .powerWindowEnd _ _ => .none
  | .energyReconciliation _ => .none
  | .energyPersist => .none
  | .hbmBackgroundRead _ _ => .none
  | .damperWindowEnd _ => .none
  | .raisedWriter _ _ => .none
  | .hostRegisterRead _ => .none
  | .hostLinkLoss _ => .none
  | .peerPair _ _ _ _ => .none

/-- The words of an instruction, written from the same tables (R75, R81, R83 to R91): a long instruction's word.
Device steps have no encoding. -/
def encodeLong (i : Instr) : Option Word :=
  match i with
  | .iadd pb pa b a d => some (enc3R 0x00 0 pb pa b a d)
  | .isub pb pa b a d => some (enc3R 0x00 1 pb pa b a d)
  | .imul pb pa b a d => some (enc3R 0x00 2 pb pa b a d)
  | .imulhI32 pb pa b a d => some (enc3R 0x00 3 pb pa b a d)
  | .imulhN32 pb pa b a d => some (enc3R 0x00 4 pb pa b a d)
  | .iminI32 pb pa b a d => some (enc3R 0x00 5 pb pa b a d)
  | .iminN32 pb pa b a d => some (enc3R 0x00 6 pb pa b a d)
  | .imaxI32 pb pa b a d => some (enc3R 0x00 7 pb pa b a d)
  | .imaxN32 pb pa b a d => some (enc3R 0x00 8 pb pa b a d)
  | .iabsI32 pa a d => some (enc3R 0x00 9 false pa 0 a d)
  | .iaddsI32 pb pa b a d => some (enc3R 0x00 10 pb pa b a d)
  | .isubsI32 pb pa b a d => some (enc3R 0x00 11 pb pa b a d)
  | .iaddsN32 pb pa b a d => some (enc3R 0x00 12 pb pa b a d)
  | .isubsN32 pb pa b a d => some (enc3R 0x00 13 pb pa b a d)
  | .and_ pb pa b a d => some (enc3R 0x01 0 pb pa b a d)
  | .or_ pb pa b a d => some (enc3R 0x01 1 pb pa b a d)
  | .xor_ pb pa b a d => some (enc3R 0x01 2 pb pa b a d)
  | .andn pb pa b a d => some (enc3R 0x01 3 pb pa b a d)
  | .shl pb pa b a d => some (enc3R 0x01 4 pb pa b a d)
  | .shr pb pa b a d => some (enc3R 0x01 5 pb pa b a d)
  | .sar pb pa b a d => some (enc3R 0x01 6 pb pa b a d)
  | .rol pb pa b a d => some (enc3R 0x01 7 pb pa b a d)
  | .popc pa a d => some (enc3R 0x01 8 false pa 0 a d)
  | .clz pa a d => some (enc3R 0x01 9 false pa 0 a d)
  | .brev pa a d => some (enc3R 0x01 10 false pa 0 a d)
  | .icmpEq pb pa b a d => some (enc3R 0x02 0 pb pa b a (k6 d))
  | .icmpNe pb pa b a d => some (enc3R 0x02 1 pb pa b a (k6 d))
  | .icmpLtI32 pb pa b a d => some (enc3R 0x02 2 pb pa b a (k6 d))
  | .icmpLeI32 pb pa b a d => some (enc3R 0x02 3 pb pa b a (k6 d))
  | .icmpLtN32 pb pa b a d => some (enc3R 0x02 4 pb pa b a (k6 d))
  | .icmpLeN32 pb pa b a d => some (enc3R 0x02 5 pb pa b a (k6 d))
  | .fcmpEq pb pa b a d => some (enc3R 0x02 6 pb pa b a (k6 d))
  | .fcmpNe pb pa b a d => some (enc3R 0x02 7 pb pa b a (k6 d))
  | .fcmpLt pb pa b a d => some (enc3R 0x02 8 pb pa b a (k6 d))
  | .fcmpLe pb pa b a d => some (enc3R 0x02 9 pb pa b a (k6 d))
  | .fcmpUn pb pa b a d => some (enc3R 0x02 10 pb pa b a (k6 d))
  | .sel p pb pa b a d => some (enc3R 0x03 (0#1 ++ p) pb pa b a d)
  | .selN p pb pa b a d => some (enc3R 0x03 (1#1 ++ p) pb pa b a d)
  | .imad c b a d => some (enc4R 0x04 c b a d)
  | .bfi c b a d => some (enc4R 0x05 c b a d)
  | .bfeN32 b a d => some (enc4R 0x06 0 b a d)
  | .bfeI32 b a d => some (enc4R 0x07 0 b a d)
  | .iaddI64 pb pa b a d => some (enc3R 0x08 0 pb pa b a d)
  | .isubI64 pb pa b a d => some (enc3R 0x08 1 pb pa b a d)
  | .shlI64 pb pa b a d => some (enc3R 0x08 2 pb pa b a d)
  | .shrN64 pb pa b a d => some (enc3R 0x08 3 pb pa b a d)
  | .sarI64 pb pa b a d => some (enc3R 0x08 4 pb pa b a d)
  | .imulwI32 pb pa b a d => some (enc3R 0x08 5 pb pa b a d)
  | .imulwN32 pb pa b a d => some (enc3R 0x08 6 pb pa b a d)
  | .iminI64 pb pa b a d => some (enc3R 0x08 7 pb pa b a d)
  | .imaxI64 pb pa b a d => some (enc3R 0x08 8 pb pa b a d)
  | .iaddi imm pa a d => some (encI 0x09 imm pa a d)
  | .andi imm pa a d => some (encI 0x0a imm pa a d)
  | .ori imm pa a d => some (encI 0x0b imm pa a d)
  | .xori imm pa a d => some (encI 0x0c imm pa a d)
  | .shli n pa a d => some (encI 0x0d (0#6 ++ n) pa a d)
  | .shri n pa a d => some (encI 0x0e (0#6 ++ n) pa a d)
  | .sari n pa a d => some (encI 0x0f (0#6 ++ n) pa a d)
  | .movi imm d => some (encI 0x10 imm false 0 d)
  | .sloi imm pa a d => some (encI 0x11 imm pa a d)
  | .imuli imm pa a d => some (encI 0x12 imm pa a d)
  | .mov pa a d => some (enc3R 0x13 0 false pa 0 a d)
  | .sextI8 pa a d => some (enc3R 0x13 1 false pa 0 a d)
  | .sextI16 pa a d => some (enc3R 0x13 2 false pa 0 a d)
  | .zextN8 pa a d => some (enc3R 0x13 3 false pa 0 a d)
  | .zextN16 pa a d => some (enc3R 0x13 4 false pa 0 a d)
  | .fadd pb pa b a d => some (enc3R 0x14 0 pb pa b a d)
  | .fsub pb pa b a d => some (enc3R 0x14 1 pb pa b a d)
  | .fmul pb pa b a d => some (enc3R 0x14 2 pb pa b a d)
  | .fmin pb pa b a d => some (enc3R 0x14 3 pb pa b a d)
  | .fmax pb pa b a d => some (enc3R 0x14 4 pb pa b a d)
  | .fdiv pb pa b a d => some (enc3R 0x14 5 pb pa b a d)
  | .fabs pa a d => some (enc3R 0x14 6 false pa 0 a d)
  | .fneg pa a d => some (enc3R 0x14 7 false pa 0 a d)
  | .fsqrt pa a d => some (enc3R 0x14 8 false pa 0 a d)
  | .frcp pa a d => some (enc3R 0x14 9 false pa 0 a d)
  | .frsq pa a d => some (enc3R 0x14 10 false pa 0 a d)
  | .fexp2 pa a d => some (enc3R 0x14 11 false pa 0 a d)
  | .flog2 pa a d => some (enc3R 0x14 12 false pa 0 a d)
  | .fsin pa a d => some (enc3R 0x14 13 false pa 0 a d)
  | .fcos pa a d => some (enc3R 0x14 14 false pa 0 a d)
  | .fmaF32 c b a d => some (enc4R 0x15 c b a d)
  | .haddF16 pb pa b a d => some (enc3R 0x16 0 pb pa b a d)
  | .hsubF16 pb pa b a d => some (enc3R 0x16 1 pb pa b a d)
  | .hmulF16 pb pa b a d => some (enc3R 0x16 2 pb pa b a d)
  | .hminF16 pb pa b a d => some (enc3R 0x16 3 pb pa b a d)
  | .hmaxF16 pb pa b a d => some (enc3R 0x16 4 pb pa b a d)
  | .haddBf16 pb pa b a d => some (enc3R 0x16 5 pb pa b a d)
  | .hsubBf16 pb pa b a d => some (enc3R 0x16 6 pb pa b a d)
  | .hmulBf16 pb pa b a d => some (enc3R 0x16 7 pb pa b a d)
  | .hminBf16 pb pa b a d => some (enc3R 0x16 8 pb pa b a d)
  | .hmaxBf16 pb pa b a d => some (enc3R 0x16 9 pb pa b a d)
  | .hfmaF16 c b a d => some (enc4R 0x17 c b a d)
  | .hfmaBf16 c b a d => some (enc4R 0x18 c b a d)
  | .cvtF32I32 pa a d => some (enc3R 0x19 0 false pa 0 a d)
  | .cvtF32N32 pa a d => some (enc3R 0x19 1 false pa 0 a d)
  | .cvtI32F32 pa a d => some (enc3R 0x19 2 false pa 0 a d)
  | .cvtN32F32 pa a d => some (enc3R 0x19 3 false pa 0 a d)
  | .cvtF16F32 pa a d => some (enc3R 0x19 4 false pa 0 a d)
  | .cvtBf16F32 pa a d => some (enc3R 0x19 5 false pa 0 a d)
  | .cvtF32F16 pa a d => some (enc3R 0x19 6 false pa 0 a d)
  | .cvtF32Bf16 pa a d => some (enc3R 0x19 7 false pa 0 a d)
  | .frnd pa a d => some (enc3R 0x19 8 false pa 0 a d)
  | .quantSb7 pa a d => some (enc3R 0x1a 0 false pa 0 a d)
  | .quantSb4 pa a d => some (enc3R 0x1a 1 false pa 0 a d)
  | .quantSb2 pa a d => some (enc3R 0x1a 2 false pa 0 a d)
  | .deqSb7 pb pa b a d => some (enc3R 0x1a 3 pb pa b a d)
  | .deqSb4 pb pa b a d => some (enc3R 0x1a 4 pb pa b a d)
  | .deqSb2 pb pa b a d => some (enc3R 0x1a 5 pb pa b a d)
  | .kand kb ka kd => some (encX 0x1B 0x000 (kb ++ ka) (k6 kd))
  | .kor kb ka kd => some (encX 0x1B 0x001 (kb ++ ka) (k6 kd))
  | .kxor kb ka kd => some (encX 0x1B 0x002 (kb ++ ka) (k6 kd))
  | .kandn kb ka kd => some (encX 0x1B 0x003 (kb ++ ka) (k6 kd))
  | .knot ka kd => some (encX 0x1B 0x004 (k6 ka) (k6 kd))
  | .lsel pb pa b a d => some (enc3R 0x1c 0 pb pa b a d)
  | .lstep pb pa b a d => some (enc3R 0x1c 1 pb pa b a d)
  | .lstepW pb pa b a d => some (enc3R 0x1c 2 pb pa b a d)
  | .lmirror pb pa b a d => some (enc3R 0x1c 3 pb pa b a d)
  | .kmask a d => some (enc3R 0x1C 4 false false 0 (k6 a) d)
  | .kcount a d => some (enc3R 0x1C 5 false false 0 (k6 a) d)
  | .krank a d => some (enc3R 0x1C 6 false false 0 (k6 a) d)
  | .lkin pa a d => some (enc3R 0x1c 7 false pa 0 a d)
  | .lfoldAdd pa a d => some (enc3R 0x1c 8 false pa 0 a d)
  | .lfoldMinI32 pa a d => some (enc3R 0x1c 9 false pa 0 a d)
  | .lfoldMaxI32 pa a d => some (enc3R 0x1c 10 false pa 0 a d)
  | .lfoldAnd pa a d => some (enc3R 0x1c 11 false pa 0 a d)
  | .lfoldOr pa a d => some (enc3R 0x1c 12 false pa 0 a d)
  | .lfoldXor pa a d => some (enc3R 0x1c 13 false pa 0 a d)
  | .lfoldMinN32 pa a d => some (enc3R 0x1c 14 false pa 0 a d)
  | .lfoldMaxN32 pa a d => some (enc3R 0x1c 15 false pa 0 a d)
  | .exit_ => some (encX 0x1D 0x000 0 0)
  | .yield => some (encX 0x1D 0x001 0 0)
  | .jmpr a => some (encX 0x1D 0x002 a 0)
  | .join n => some (encX 0x1D (1#4 ++ n) 0 0)
  | .brt disp k => some (encB 0x1E disp k)
  | .brf disp k => some (encB 0x1F disp k)
  | .call disp => some (encB 0x20 disp 0)
  | .siadd pb pa b a d => some (enc3R 0x40 0 pb pa b a d)
  | .sisub pb pa b a d => some (enc3R 0x40 1 pb pa b a d)
  | .simul pb pa b a d => some (enc3R 0x40 2 pb pa b a d)
  | .simulhI32 pb pa b a d => some (enc3R 0x40 3 pb pa b a d)
  | .simulhN32 pb pa b a d => some (enc3R 0x40 4 pb pa b a d)
  | .siminI32 pb pa b a d => some (enc3R 0x40 5 pb pa b a d)
  | .siminN32 pb pa b a d => some (enc3R 0x40 6 pb pa b a d)
  | .simaxI32 pb pa b a d => some (enc3R 0x40 7 pb pa b a d)
  | .simaxN32 pb pa b a d => some (enc3R 0x40 8 pb pa b a d)
  | .siabsI32 pa a d => some (enc3R 0x40 9 false pa 0 a d)
  | .siaddsI32 pb pa b a d => some (enc3R 0x40 10 pb pa b a d)
  | .sisubsI32 pb pa b a d => some (enc3R 0x40 11 pb pa b a d)
  | .siaddsN32 pb pa b a d => some (enc3R 0x40 12 pb pa b a d)
  | .sisubsN32 pb pa b a d => some (enc3R 0x40 13 pb pa b a d)
  | .sand pb pa b a d => some (enc3R 0x41 0 pb pa b a d)
  | .sor pb pa b a d => some (enc3R 0x41 1 pb pa b a d)
  | .sxor pb pa b a d => some (enc3R 0x41 2 pb pa b a d)
  | .sandn pb pa b a d => some (enc3R 0x41 3 pb pa b a d)
  | .sshl pb pa b a d => some (enc3R 0x41 4 pb pa b a d)
  | .sshr pb pa b a d => some (enc3R 0x41 5 pb pa b a d)
  | .ssar pb pa b a d => some (enc3R 0x41 6 pb pa b a d)
  | .srol pb pa b a d => some (enc3R 0x41 7 pb pa b a d)
  | .spopc pa a d => some (enc3R 0x41 8 false pa 0 a d)
  | .sclz pa a d => some (enc3R 0x41 9 false pa 0 a d)
  | .sbrev pa a d => some (enc3R 0x41 10 false pa 0 a d)
  | .scmpEq pb pa b a d => some (enc3R 0x42 0 pb pa b a d)
  | .scmpNe pb pa b a d => some (enc3R 0x42 1 pb pa b a d)
  | .scmpLtI32 pb pa b a d => some (enc3R 0x42 2 pb pa b a d)
  | .scmpLeI32 pb pa b a d => some (enc3R 0x42 3 pb pa b a d)
  | .scmpLtN32 pb pa b a d => some (enc3R 0x42 4 pb pa b a d)
  | .scmpLeN32 pb pa b a d => some (enc3R 0x42 5 pb pa b a d)
  | .siaddi imm pa a d => some (encI 0x43 imm pa a d)
  | .smovi imm d => some (encI 0x44 imm false 0 d)
  | .ssloi imm pa a d => some (encI 0x45 imm pa a d)
  | .simad c b a d => some (enc4R 0x46 c b a d)
  | .ldu32 po disp base o d => some (encM 0x47 po disp base o d)
  | .movVs a b => some (encX 0x48 0x000 a b)
  | .movSv a b => some (encX 0x48 0x001 a b)
  | .rdlane n a b => some (encX 0x48 (2#7 ++ n) a b)
  | .iaddShort _ _ _ => none
  | .isubShort _ _ _ => none
  | .imulShort _ _ _ => none
  | .andShort _ _ _ => none
  | .orShort _ _ _ => none
  | .xorShort _ _ _ => none
  | .shlShort _ _ _ => none
  | .shrShort _ _ _ => none
  | .sarShort _ _ _ => none
  | .movShort _ _ => none
  | .moviShort _ _ => none
  | .iminShort _ _ _ => none
  | .imaxShort _ _ _ => none
  | .faddShort _ _ => none
  | .fsubShort _ _ => none
  | .fmulShort _ _ => none
  | .fmaxShort _ _ => none
  | .cmov a b => some (encC 0 0 (c6 a) (c6 b))
  | .csetb x a b => some (encC 1 x (c6 a) (c6 b))
  | .candp x a b => some (encC 2 x (c6 a) (c6 b))
  | .cseal x a b => some (encC 3 x (c6 a) (c6 b))
  | .cunseal a b => some (encC 4 0 (c6 a) (c6 b))
  | .cdeleg x a b => some (encC 5 x (c6 a) (c6 b))
  | .croot x b => some (encC 6 x 0 (c6 b))
  | .cgetBase a b => some (encC 7 0 (c6 a) b)
  | .cgetLen a b => some (encC 8 0 (c6 a) b)
  | .cgetPerm a b => some (encC 9 0 (c6 a) b)
  | .cgetType a b => some (encC 10 0 (c6 a) b)
  | .cgetTag a b => some (encC 11 0 (c6 a) b)
  | .cgetColour a b => some (encC 12 0 (c6 a) b)
  | .cgetGen a b => some (encC 13 0 (c6 a) b)
  | .cclrtag a b => some (encC 14 0 (c6 a) (c6 b))
  | .ctoq a b => some (encC 15 0 (c6 a) b)
  | .cfromq a b => some (encC 16 0 a (c6 b))
  | .ccover x a b => some (encC 17 (c6 x) (c6 a) b)
  | .ld32 po disp base o d => some (encM 0x61 po disp base o d)
  | .ld64 po disp base o d => some (encM 0x62 po disp base o d)
  | .ld128 po disp base o d => some (encM 0x63 po disp base o d)
  | .st32 po disp base o d => some (encM 0x64 po disp base o d)
  | .st64 po disp base o d => some (encM 0x65 po disp base o d)
  | .st128 po disp base o d => some (encM 0x66 po disp base o d)
  | .ld32Quad po disp base o d => some (encM 0x67 po disp base o d)
  | .st32Quad po disp base o d => some (encM 0x68 po disp base o d)
  | .cld po disp base o d => some (encM 0x69 po disp base o d)
  | .cst po disp base o d => some (encM 0x6a po disp base o d)
  | .lds32 po disp win o d => some (encM 0x6b po disp (b4 win) o d)
  | .sts32 po disp win o d => some (encM 0x6c po disp (b4 win) o d)
  | .ldN8 c a b => some (encX 0x6d (c ++ 0x00#8) a b)
  | .ldI8 c a b => some (encX 0x6d (c ++ 0x01#8) a b)
  | .ldN16 c a b => some (encX 0x6d (c ++ 0x02#8) a b)
  | .ldI16 c a b => some (encX 0x6d (c ++ 0x03#8) a b)
  | .st8 c a b => some (encX 0x6d (c ++ 0x04#8) a b)
  | .st16 c a b => some (encX 0x6d (c ++ 0x05#8) a b)
  | .ldN8Quad c a b => some (encX 0x6d (c ++ 0x08#8) a b)
  | .ldI8Quad c a b => some (encX 0x6d (c ++ 0x09#8) a b)
  | .ldN16Quad c a b => some (encX 0x6d (c ++ 0x0a#8) a b)
  | .ldI16Quad c a b => some (encX 0x6d (c ++ 0x0b#8) a b)
  | .st8Quad c a b => some (encX 0x6d (c ++ 0x0c#8) a b)
  | .st16Quad c a b => some (encX 0x6d (c ++ 0x0d#8) a b)
  | .ld64Quad c a b => some (encX 0x6d (c ++ 0x10#8) a b)
  | .st64Quad c a b => some (encX 0x6d (c ++ 0x11#8) a b)
  | .ld128Quad c a b => some (encX 0x6d (c ++ 0x12#8) a b)
  | .st128Quad c a b => some (encX 0x6d (c ++ 0x13#8) a b)
  | .atomAdd c a b => some (encX 0x6d (c ++ 0x20#8) a b)
  | .atomMinI32 c a b => some (encX 0x6d (c ++ 0x21#8) a b)
  | .atomMaxI32 c a b => some (encX 0x6d (c ++ 0x22#8) a b)
  | .atomMinN32 c a b => some (encX 0x6d (c ++ 0x23#8) a b)
  | .atomMaxN32 c a b => some (encX 0x6d (c ++ 0x24#8) a b)
  | .atomAnd c a b => some (encX 0x6d (c ++ 0x25#8) a b)
  | .atomOr c a b => some (encX 0x6d (c ++ 0x26#8) a b)
  | .atomXor c a b => some (encX 0x6d (c ++ 0x27#8) a b)
  | .atomSwap c a b => some (encX 0x6d (c ++ 0x28#8) a b)
  | .atomCas c a b => some (encX 0x6d (c ++ 0x29#8) a b)
  | .atomAddF32 c a b => some (encX 0x6d (c ++ 0x2a#8) a b)
  | .redAdd c a b => some (encX 0x6d (c ++ 0x30#8) a b)
  | .redMinI32 c a b => some (encX 0x6d (c ++ 0x31#8) a b)
  | .redMaxI32 c a b => some (encX 0x6d (c ++ 0x32#8) a b)
  | .redMinN32 c a b => some (encX 0x6d (c ++ 0x33#8) a b)
  | .redMaxN32 c a b => some (encX 0x6d (c ++ 0x34#8) a b)
  | .redAnd c a b => some (encX 0x6d (c ++ 0x35#8) a b)
  | .redOr c a b => some (encX 0x6d (c ++ 0x36#8) a b)
  | .redXor c a b => some (encX 0x6d (c ++ 0x37#8) a b)
  | .redAddF32 c a b => some (encX 0x6d (c ++ 0x3a#8) a b)
  | .atomsAdd win a b => some (encX 0x6d (b4 win ++ 0x40#8) a b)
  | .atomsMinI32 win a b => some (encX 0x6d (b4 win ++ 0x41#8) a b)
  | .atomsMaxI32 win a b => some (encX 0x6d (b4 win ++ 0x42#8) a b)
  | .atomsMinN32 win a b => some (encX 0x6d (b4 win ++ 0x43#8) a b)
  | .atomsMaxN32 win a b => some (encX 0x6d (b4 win ++ 0x44#8) a b)
  | .atomsAnd win a b => some (encX 0x6d (b4 win ++ 0x45#8) a b)
  | .atomsOr win a b => some (encX 0x6d (b4 win ++ 0x46#8) a b)
  | .atomsXor win a b => some (encX 0x6d (b4 win ++ 0x47#8) a b)
  | .atomsSwap win a b => some (encX 0x6d (b4 win ++ 0x48#8) a b)
  | .atomsCas win a b => some (encX 0x6d (b4 win ++ 0x49#8) a b)
  | .atomsAddF32 win a b => some (encX 0x6d (b4 win ++ 0x4a#8) a b)
  | .prefetch c a => some (encX 0x6d (c ++ 0x50#8) a 0)
  | .waitmemNe c a b => some (encX 0x6d (c ++ 0x51#8) a b)
  | .waitmemEq c a b => some (encX 0x6d (c ++ 0x52#8) a b)
  | .spempty a => some (encX 0x6d (0#4 ++ 0x54#8) a 0)
  | .spfill a => some (encX 0x6d (0#4 ++ 0x55#8) a 0)
  | .shape c a b => some (encX 0x6d (c ++ 0x58#8) a b)
  | .fence scope kind => some (encX 0x6E (0#7 ++ scope ++ kind) 0 0)
  | .fenceShape => some (encX 0x6E 0x020 0 0)
  | .barArv lvl idx => some (encX 0x6E 0x040 (lvl ++ idx) 0)
  | .barWait lvl idx b => some (encX 0x6E 0x041 (lvl ++ idx) b)
  | .barSync lvl idx b => some (encX 0x6E 0x042 (lvl ++ idx) b)
  | .barExp lvl idx b => some (encX 0x6E 0x043 (lvl ++ idx) b)
  | .tcfg t b => some (encX 0x6f (0#4 ++ 0x00#8) (k6 t) b)
  | .tld c t b => some (encX 0x6f (c ++ 0x01#8) (k6 t) b)
  | .tst c t b => some (encX 0x6f (c ++ 0x02#8) (k6 t) b)
  | .mma tb ta d => some (encX 0x6f (0#4 ++ 0x08#8) (tb ++ ta) (c6 d))
  | .mmaq f tb ta d => some (encX 0x6f (f ++ 0x09#8) (tb ++ ta) (c6 d))
  | .mmaS c a ta d => some (encX 0x6f (c ++ 0x0a#8) a (ta ++ d))
  | .accAlloc d => some (encX 0x6f (0#4 ++ 0x10#8) (c6 d) 0)
  | .accFree d => some (encX 0x6f (0#4 ++ 0x11#8) (c6 d) 0)
  | .accZero d => some (encX 0x6f (0#4 ++ 0x14#8) (c6 d) 0)
  | .accRd f d b => some (encX 0x6f (f ++ 0x12#8) (c6 d) b)
  | .accWr f d b => some (encX 0x6f (f ++ 0x13#8) (c6 d) b)
  | .accDrain c d b => some (encX 0x6f (c ++ 0x15#8) (c6 d) b)
  | .accDrainAdd c d b => some (encX 0x6f (c ++ 0x16#8) (c6 d) b)
  | .accQuant d t => some (encX 0x6f (0#4 ++ 0x17#8) (c6 d) (k6 t))
  | .flueBoard c ord rel a m => some (encX 0x70 (c ++ BitVec.ofBool ord ++ BitVec.ofBool rel ++ 0#1 ++ 0#5) a (c6 m))
  | .flueAlight c ord rel a m => some (encX 0x70 (c ++ BitVec.ofBool ord ++ BitVec.ofBool rel ++ 0#1 ++ 1#5) a (c6 m))
  | .fluePeek c ord acq a b => some (encX 0x70 (c ++ BitVec.ofBool ord ++ 0#1 ++ BitVec.ofBool acq ++ 2#5) a b)
  | .flueWaitEq c ord acq a b => some (encX 0x70 (c ++ BitVec.ofBool ord ++ 0#1 ++ BitVec.ofBool acq ++ 3#5) a b)
  | .flueWaitNe c ord acq a b => some (encX 0x70 (c ++ BitVec.ofBool ord ++ 0#1 ++ BitVec.ofBool acq ++ 4#5) a b)
  | .flueRev c b => some (encX 0x70 (c ++ 0#3 ++ 5#5) 0 b)
  | .flueCap c ord ordering op a b => some (encX 0x70 (c ++ BitVec.ofBool ord ++ ordering ++ 1#2 ++ op) a b)
  | .flueCapS2 c ord ordering op a b => some (encX 0x70 (c ++ BitVec.ofBool ord ++ ordering ++ 2#2 ++ op) a b)
  | .flueCapS4 c ord ordering op a b => some (encX 0x70 (c ++ BitVec.ofBool ord ++ ordering ++ 3#2 ++ op) a b)
  | .qw w q a => some (encX 0x71 (w ++ q ++ 0#8) a 0)
  | .qgo q => some (encX 0x71 (0#2 ++ q ++ 1#8) 0 0)
  | .qgoC q c => some (encX 0x71 (0#2 ++ q ++ 2#8) 0 (c6 c))
  | .qrd q toS b => some (encX 0x71 (0#2 ++ q ++ 3#8) (b6 toS) b)
  | .qstat q b => some (encX 0x71 (0#2 ++ q ++ 4#8) 0 b)
  | .launch c a => some (encX 0x72 (c ++ 0x00#8) a 0)
  | .graphTrig c a b => some (encX 0x72 (c ++ 0x01#8) a b)
  | .amsend a b => some (encX 0x72 (0#4 ++ 0x02#8) a b)
  | .hcmd c a b => some (encX 0x73 (c ++ 0x00#8) a b)
  | .sweep => some (encX 0x73 (0#4 ++ 0x01#8) 0 0)
  | .phalt a => some (encX 0x73 (0#4 ++ 0x02#8) a 0)
  | .presume a => some (encX 0x73 (0#4 ++ 0x03#8) a 0)
  | .resync a => some (encX 0x73 (0#4 ++ 0x04#8) a 0)
  | .esign c a => some (encX 0x74 (c ++ 0x00#8) a 0)
  | .psnap b => some (encX 0x74 (0#4 ++ 0x01#8) 0 b)
  | .mfcr idx toS b => some (encX 0x75 idx (b6 toS) b)
  | .mtcr idx a => some (encX 0x76 idx a 0)
  | .tret => some (encX 0x77 0x000 0 0)
  | .ifence => some (encX 0x77 0x001 0 0)
  | .bkpt => some (encX 0x77 0x002 0 0)
  | .syscall n => some (encX 0x77 (1#4 ++ n) 0 0)
  | .hvcall n => some (encX 0x77 (2#4 ++ n) 0 0)
  | .joinHoldEnd _ _ => none
  | .yieldRelease _ _ => none
  | .progressBoundExpiry _ _ => none
  | .splitWake _ _ => none
  | .dispatch _ => none
  | .blockPlacement _ => none
  | .blockCompletion _ => none
  | .graphRunStart _ _ => none
  | .eviction _ => none
  | .reinstatement _ => none
  | .sliceEnd _ => none
  | .trapEntry _ _ => none
  | .blockHalt _ => none
  | .loadReturn _ => none
  | .accessRejection _ => none
  | .homeSliceAccess _ _ _ => none
  | .extentChangeCompletion _ => none
  | .matrixStart _ => none
  | .matrixCompletion _ => none
  | .tileFill _ => none
  | .drainDelivery _ => none
  | .copy1d _ => none
  | .copy2d _ => none
  | .copytile _ => none
  | .fill _ => none
  | .seal _ => none
  | .open_ _ => none
  | .gather _ => none
  | .scatter _ => none
  | .send _ => none
  | .recv _ => none
  | .bcast _ => none
  | .engineSectorDelivery _ => none
  | .engineCommandCompletion _ => none
  | .engineCommandFailure _ => none
  | .fluePass _ => none
  | .flueAlightCompletion _ => none
  | .messageArrival _ _ => none
  | .handlerSpawn _ => none
  | .signedReadingWrite _ _ => none
  | .reconfigurationListApply => none
  | .sweepPass => none
  | .sweepPassCompletion => none
  | .hostSnoop _ _ _ => none
  | .atsCompletion _ _ _ _ _ => none
  | .atsInvalidation _ _ _ => none
  | .pageRequestResponse _ _ _ => none
  | .hostCxlMemAccess _ _ _ _ => none
  | .hostRegisterWrite _ _ => none
  | .evtailWrite _ => none
  | .mailboxLaunch => none
  | .mailboxGraphTrig => none
  | .reconfigure => none
  | .energyRead => none
  | .attest => none
  | .kemKey => none
  | .keyLoad => none
  | .channelResync => none
  | .mode_ => none
  | .migrateWrap => none
  | .migrateUnwrap => none
  | .pair => none
  | .linkUp _ _ => none
  | .linkLoss _ => none
  | .deviceReset _ => none
  | .perst => none
  | .powerLoss _ => none
  | .powerWindowEnd _ _ => none
  | .energyReconciliation _ => none
  | .energyPersist => none
  | .hbmBackgroundRead _ _ => none
  | .damperWindowEnd _ => none
  | .raisedWriter _ _ => none
  | .hostRegisterRead _ => none
  | .hostLinkLoss _ => none
  | .peerPair _ _ _ _ => none

/-- The parcel of a 16-bit instruction (R81). -/
def encodeShort (i : Instr) : Option (BitVec 16) :=
  match i with
  | .iaddShort i s d => some (enc16 i s d 0)
  | .isubShort i s d => some (enc16 i s d 1)
  | .imulShort i s d => some (enc16 i s d 2)
  | .andShort i s d => some (enc16 i s d 3)
  | .orShort i s d => some (enc16 i s d 4)
  | .xorShort i s d => some (enc16 i s d 5)
  | .shlShort i s d => some (enc16 i s d 6)
  | .shrShort i s d => some (enc16 i s d 7)
  | .sarShort i s d => some (enc16 i s d 8)
  | .movShort s d => some (enc16 false s d 9)
  | .moviShort s d => some (enc16 true s d 9)
  | .iminShort i s d => some (enc16 i s d 10)
  | .imaxShort i s d => some (enc16 i s d 11)
  | .faddShort s d => some (enc16 false s d 12)
  | .fsubShort s d => some (enc16 false s d 13)
  | .fmulShort s d => some (enc16 false s d 14)
  | .fmaxShort s d => some (enc16 false s d 15)
  | _ => none

/-- The prefix word (R77). -/
def encodePrefix (p : Prefix) : Word :=
  p.predicate ++ BitVec.ofBool p.negate ++ p.kind ++ p.modA ++ p.amtA ++ p.modB ++ p.amtB ++ p.scope ++ 0#1 ++ 0x3F#7 ++ 1#1

/-- The bytes of a word, lowest address first (R5, R73). -/
def wordBytes (w : Word) : List Byte :=
  [w.extractLsb' 0 8, w.extractLsb' 8 8, w.extractLsb' 16 8, w.extractLsb' 24 8]

def parcelBytes (p : BitVec 16) : List Byte := [p.extractLsb' 0 8, p.extractLsb' 8 8]

/-- The bytes of an instruction in memory; none for a device step. -/
def encode (i : Instr) : Option (List Byte) :=
  match encodeShort i with
  | some p => some (parcelBytes p)
  | none => (encodeLong i).map wordBytes

/-- The bytes of a prefixed pair (R78). -/
def encodePrefixed (p : Prefix) (i : Instr) : Option (List Byte) :=
  (encodeLong i).map fun w => wordBytes (encodePrefix p) ++ wordBytes w

/-- Whether the fields of a prefix suit the use (R78, R216). -/
def prefixOk (p : Prefix) (u : PrefixUse) : Bool :=
  (p.modA != 0 || p.amtA == 0) && (p.modB != 0 || p.amtB == 0) &&
  match u with
  | .none => false
  | .bare => p.predicate == 0 && !p.negate && p.kind == 0 && p.modA == 0 && p.modB == 0 && p.scope == 0
  | .lane rounds a b =>
    p.scope == 0 && (rounds || p.kind == 0) && (a || p.modA == 0) && (b || p.modB == 0)
  | .mem acq rel ar hasScope pred =>
    p.modA == 0 && p.modB == 0 && (pred || (p.predicate == 0 && !p.negate)) &&
    p.scope.toNat ≤ 5 && (hasScope || p.scope == 0) &&
    (p.kind == 0 || (p.scope != 0 && (if p.kind == 1 then acq else if p.kind == 2 then rel else ar)))

/-- A decoded instruction: its size in bytes with any prefix, its word (a parcel zero-extended), and its prefix. -/
structure Decoded where
  instr  : Instr
  size   : Nat
  word   : Word
  pfx    : Option Prefix
  pfxWord : Word
  deriving DecidableEq, Repr

/-- The word that four bytes hold (R5). -/
def word4 (b0 b1 b2 b3 : Byte) : Word := b3 ++ b2 ++ b1 ++ b0

/-- Decodes the long word after a prefix word (R78). -/
def decodePair (pw : Word) : List Byte → Except DecodeError Decoded
  | b0 :: b1 :: rest =>
    if !b0.getLsbD 0 then (if (b1 ++ b0) == 0#16 then .error .zeroParcel else .error .reserved)
    else match rest with
      | b2 :: b3 :: _ =>
        let w := word4 b0 b1 b2 b3
        if w.extractLsb' 1 7 == 0x3F then .error .reserved
        else (decodeLong w).bind fun i =>
          if !pw.getLsbD 8 && prefixOk (prefixOf pw) (prefixUse i) then .ok ⟨i, 8, w, some (prefixOf pw), pw⟩
          else .error .reserved
      | _ => .error .truncated
  | _ => .error .truncated

/-- Decodes the instruction at the head of the bytes: one parcel, two, or a prefix with the long word it modifies
(R73, R78). -/
def decode : List Byte → Except DecodeError Decoded
  | b0 :: b1 :: rest =>
    if !b0.getLsbD 0 then (decodeShort (b1 ++ b0)).map fun i => ⟨i, 2, 0#16 ++ (b1 ++ b0), none, 0⟩
    else match rest with
      | b2 :: b3 :: more =>
        let w := word4 b0 b1 b2 b3
        if w.extractLsb' 1 7 == 0x3F then decodePair w more
        else (decodeLong w).map fun i => ⟨i, 4, w, none, 0⟩
      | _ => .error .truncated
  | _ => .error .truncated

/-- The bytes of a number, lowest first. -/
def bytesOfNat : Nat → Nat → List Byte
  | 0, _ => []
  | n + 1, w => BitVec.ofNat 8 w :: bytesOfNat n (w / 256)

/-- The instruction the decoder reads from a word of the opcode table: its bytes in memory order, followed by zeros up
to the longest instruction, a prefixed pair. -/
def decodeTableWord (nbits w : Nat) : Option Instr :=
  match decode (bytesOfNat 8 (w % 2 ^ nbits)) with
  | .ok d => some d.instr
  | .error _ => none

end

end Sys2Proof
end

