-- ==== Sys2Proof/Config.lean ====
section
/-! DEFINITION. What the spec leaves open, as constants without a body: nothing can evaluate them, so whatever is proved holds for every
value. notes/assumptions/ says for each which rule leaves it open. -/

namespace Sys2Proof.Config

/-- A fresh value that the spec leaves open, of any width; applied to State.fresh (log 20). -/
opaque freeValue {w : Nat} (n : Nat) : BitVec w

/-- AES-256-XTS decryption of a 16-byte unit under a key and a tweak (R210; log 23). -/
opaque xtsDecrypt (key : BitVec 512) (tweak : Nat) (unit : BitVec 128) : BitVec 128

/-- The functions of R139 as the part computes them; the model takes a value only within the rule's bound (log 21). -/
opaque frcp (x : Word) : Word
opaque frsq (x : Word) : Word
opaque fexp2 (x : Word) : Word
opaque flog2 (x : Word) : Word
opaque fsin (x : Word) : Word
opaque fcos (x : Word) : Word

/-- The set, of 1,024, of a slice that a line number maps to (R199; log 22). -/
opaque cacheSet (line : Nat) : BitVec 10

/-- What AES-256-GCM leaves of a sealed record, by context key and sequence value (the nonce); n stands for what was sealed (R370; log 10). -/
opaque sealedRecord {w : Nat} (key : BitVec 512) (seq n : Nat) : BitVec w

/-- SHA3-512 of bytes (R384, R410; log 23). -/
opaque sha3 (bytes : List Byte) : BitVec 512
/-- The keystream of a cipher by key, and of the part's own keys by purpose: ciphertext is plaintext XOR keystream (R310, R384; log 23). -/
opaque keystream (key : Nat) (nonce : Nat) (index : Nat) : Byte
/-- An authentication tag, and a signature, over bytes (R310, R384, R401, R409, R410; log 23). -/
opaque mac (key : Nat) (nonce : Nat) (bytes : List Byte) : BitVec 512
opaque sign (bytes : List Byte) : List Byte
/-- Key encapsulation: the device's public key, and the secret that an encapsulation yields (R405, R409; log 23). -/
opaque kemPublic : List Byte
opaque kemOpen (bytes : List Byte) : Option (BitVec 256)
/-- The device's ML-DSA-87 public key, and the device identity, its SHA3-512 (R402; log 23). -/
opaque signPublic : List Byte
def identity : BitVec 512 := sha3 signPublic
/-- The device sealing root, and KMAC256 (R414; log 23). -/
opaque sealingRoot : BitVec 256
opaque kmac (key : BitVec 256) (fields : List Byte) (custom : String) : BitVec 256
opaque kmac64 (key : BitVec 256) (fields : List Byte) (custom : String) : BitVec 64
/-- Key encapsulation to a peer's key: the ciphertext and the secret (R411; log 23). -/
opaque kemSend (key : List Byte) (n : Nat) : List Byte × BitVec 256
/-- Whether the signature of a peer's report verifies under a certified chain (R411; log 23). -/
opaque reportSigned (report : List Byte) : Bool
/-- The security controller's firmware, its SHA3-512, and the certificate chain of the signing key (R410; log 23). -/
opaque firmwareBytes : List Byte
def firmware : BitVec 512 := sha3 firmwareBytes
opaque chain : List Byte
/-- The calibrated energy of an occurrence of an event of R392's classes, of a MAC (0x12) and of a byte of a tile image (0x13) (R278, R396; log
98). -/
opaque eventEnergy (event : Nat) : Nat
/-- A word of the health registers, by its offset among them, from module power, temperatures, clock step and the counts of soft errors, whose
layout the spec leaves open (R404; log 113). -/
opaque healthWord (off power : Nat) (temps : List Nat) (step : Nat) (soft : List (Nat × Word)) : Word
/-- The allow-list that the security controller writes at entry into confidential mode (R380, R407; log 40). -/
opaque allowWord (n : Nat) : Word

end Sys2Proof.Config
end

