-- ==== Sys2Proof/Machine/State.lean ====
section
/-! DEFINITION. The state of the part as plain data, the reasons a step can stop, and the state right after device reset.
Every field's rule stands in its docstring; INVENTORY.md lists them with their reset values. -/

namespace Sys2Proof.Machine

/-- Sparse data by key, in one canonical form: keys strictly rising. A store of values with a default lists no entry
that equals the default. -/
abbrev Store (α : Type) := List (Nat × α)

/-- A capability: 128 bits and the tag held beside them (R167). -/
structure Cap where
  bits : BitVec 128
  tag  : Bool
  deriving DecidableEq, Repr, Inhabited

/-- Privilege modes (R20). -/
inductive Mode where
  | u
  | s
  | h
  deriving DecidableEq, Repr, Inhabited

/-- An entry of a reconvergence stack: a program counter and a lane mask (R31). -/
structure StackEntry where
  pc   : Word
  mask : Mask
  deriving DecidableEq, Repr, Inhabited

/-- A register or place that a reply fills. -/
inductive Dest where
  /-- v register of the bank's key (bank * 64 + register), in the request's lane. -/
  | v (key : Nat)
  | s (key : Nat)
  deriving DecidableEq, Repr, Inhabited

/-- Why a split is parked (R41). -/
inductive Wake where
  /-- Waits at the barrier of this level and index, to write the phase word to this s key (R252); sync: in BAR.SYNC, which has arrived. -/
  | barrier (lvl idx key : Nat) (sync : Bool)
  /-- Its condition has been met; it becomes ready within 8 clk (R41). -/
  | met
  /-- Its wait at a barrier is over, and the phase word waits for its s register, which another split's load has emptied, to fill (R59, R252): the
  program counter after the instruction. -/
  | fill (next : Word)
  /-- In QRD on the empty result queue (R302): the program counter after it. -/
  | queue (q : Nat) (next : Word)
  /-- In FLUE.WAIT (R288): the program counter after it. -/
  | flue (next : Word)
  /-- In WAITMEM (R224): the program counter after it. -/
  | waitmem (next : Word)
  /-- Reads empty scratchpad lines of blocks: block and line (R206). -/
  | pad (lines : List (Nat × Nat))
  /-- A load to the host window is outstanding (R202). -/
  | host
  /-- The outbound queue has no usable entry (R340). -/
  | outbound
  /-- A trap it raised waits for the depth to be free (R354). -/
  | depth
  deriving DecidableEq, Repr, Inhabited

/-- Whether and how a split takes part in issue. -/
inductive Run where
  | ready
  /-- Held by JOIN for this many more clk (R36). -/
  | held (left : Nat)
  /-- After YIELD: the clk by which it goes on, and the splits (gang, lowest lane, that lane's count of instructions issued) still
  owed an issue opportunity (R160). -/
  | yielding (limit : Nat) (owed : List (Nat × Nat × Nat))
  /-- Held, ready and not parked, while an operation it started completes (R300, R321, R332, R372, R381, R401). -/
  | busy
  | parked (w : Wake)
  deriving DecidableEq, Repr, Inhabited

/-- A trap raised and not yet entered: for a rejection reported late, the number of the instruction (R174); its lanes, cause, faulting address, detail, the instruction, where its lanes
resume, where the split's other lanes go on, and where the split stands while it waits (R354, R355, R357); the v keys with lanes, the s
keys and the tile that become full at its entry (R359), and the wait that the split's other lanes go on with. -/
structure PendingTrap where
  lanes   : Mask
  cause   : Nat
  addr    : Nat
  detail  : Nat
  pc      : Word
  word    : Word
  pfx     : Word
  resume  : Word
  rest    : Word
  stay    : Word
  late    : Nat
  fills   : List (Nat × Mask) := []
  sfills  : List Nat := []
  tile    : Option Nat := none
  back    : Option Wake := none
  inst    : Nat := 0
  deriving DecidableEq, Repr, Inhabited

/-- A split (R31): mask, program counter, mode, depth, DOUBLE state (R363), stack; how it runs; the trap it waits to
take; the lanes left of a partly complete instruction (R227, R229; 0: none); and the code lines it holds fetched, with their bytes
(R245). -/
structure Split where
  mask   : Mask
  pc     : Word
  mode   : Mode
  depth  : Nat
  dbl    : Bool
  stack  : List StackEntry
  run    : Run
  trap   : Option PendingTrap
  only   : Mask
  code   : Store (List Byte)
  deriving DecidableEq, Repr, Inhabited

/-- What the device keeps on chip of a spilled stack entry: its slot, the SPLIT, MODE and DEPTH it spilled with, and
those lanes of it that have not returned (R33). -/
structure Spill where
  slot  : Nat
  entry : Nat
  mode  : Mode
  depth : Nat
  lanes : Mask
  deriving DecidableEq, Repr, Inhabited

/-- The return record of a trap (R355): the mode and depth it came from, the lanes still in it, the saved stack until
the first TRET takes it, the pending split with the wait it goes on with (R288, R224), and the capability to the frame that c15
reads (R356). -/
structure TrapRec where
  mode    : Mode
  depth   : Nat
  entry   : Nat
  lanes   : Mask
  saved   : Option (List StackEntry)
  pending : Option (Word × Mask)
  frame   : Cap
  wait    : Option Wake := none
  deriving DecidableEq, Repr, Inhabited

/-- The staging area and the result queue of a queue register (R63, R299, R300). -/
structure QReg where
  words   : Store (BitVec 64)
  written : BitVec 4
  results : List (BitVec 64)
  deriving DecidableEq, Repr, Inhabited

/-- A barrier (R248). nextDec counts exits that lower EXPECTED ARRIVALS from the next phase on (R250); count numbers the
phases completed. ARRIVALS and DELIVERED SECTORS count modulo 2^32 (log 14). -/
structure Barrier where
  phase   : Bool
  expArr  : Nat
  arr     : Nat
  expSec  : Nat
  delSec  : Nat
  error   : Bool
  code    : BitVec 16
  nextDec : Nat
  count   : Nat
  deriving DecidableEq, Repr, Inhabited

/-- What a barrier belongs to (R248). -/
inductive BarRef where
  | gang (g : Nat)
  | block (b i : Nat)
  | group (g i : Nat)
  | grid (p i : Nat)
  deriving DecidableEq, Repr, Inhabited

/-- Where a gang is (R45 to R49). -/
inductive Place where
  | resident
  | evicted
  deriving DecidableEq, Repr, Inhabited

/-- A gang and its seat's registers (R53). v keys are (bank * 64 + register) * 32 + lane, s keys bank * 64 + register, c keys
bank * 16 + register, with bank 0 for U, 1 for S and 2 for H; vEmpty and vTag hold lane masks by register and by quad; vBad, kBad, sBad and
cBad mark what an uncorrectable error has hit (R211, R213). -/
structure Gang where
  block    : Nat
  index    : Nat
  seat     : Nat
  order    : Nat
  place    : Place
  v        : Store Word
  vEmpty   : Store Mask
  vTag     : Store Mask
  k        : Store Mask
  vBad     : Store Mask
  kBad     : Store Mask
  s        : Store Word
  sEmpty   : Store Bool
  sBad     : Store Bool
  c        : Store Cap
  cBad     : Store Bool
  q        : Store QReg
  splits   : Store Split
  /-- By lane, how many instructions the splits that held it have issued (R174). -/
  ticks    : List Nat
  /-- By lane, the number that its accesses have below its last fence with release: later writes of the lane wait for those (R241). -/
  fences   : Store Nat
  /-- By lane, the scope of a fence with release that no strong store or atomic of the lane has followed yet (R236). -/
  rels     : Store Nat
  spills   : List Spill
  traps    : Store TrapRec
  exited   : Mask
  clkHi    : Word
  enHi     : Word
  /-- Per barrier (level * 16 + index, doubled, plus half): recorded phase bit, lanes arrived since the last arrival, and the
  phase number plus 1 of the last arrival (R250). -/
  recorded : Store Bool
  arriving : Store Mask
  arrived  : Store Nat
  gangBar  : Barrier
  /-- Stopped by a block halt, and the instructions issued since the halt reached it (R51, R365). -/
  stopped  : Bool
  skid     : Nat
  /-- The eviction record it is in (R373), with the seat record's bytes that the record carries (R45). -/
  record   : Option (Nat × List Byte)
  deriving DecidableEq, Repr, Inhabited

/-- A kernel header (R25, R26). -/
structure Header where
  compat      : Bool
  blockHalt   : Bool
  gangs       : Nat
  regs        : Nat
  scratch     : Nat
  tiles       : Nat
  banks       : Nat
  revision    : Nat
  blockBars   : Nat
  clusterBars : Nat
  gridBars    : Nat
  entry       : Nat
  codeLen     : Nat
  deriving DecidableEq, Repr, Inhabited

/-- The state of a block halt (R51, R365): the traps that caused it, as gang and depth (4 for the double fault), and whether
it is never released. -/
structure Halt where
  causes  : List (Nat × Nat)
  forever : Bool
  deriving DecidableEq, Repr, Inhabited

/-- An accumulator bank's recorded fault and its allocation (R268). -/
structure BankInfo where
  alloc : Bool
  cause : Nat
  addr  : Nat
  deriving DecidableEq, Repr, Inhabited

/-- A placed block: its launch, place and header (R25), its scratchpad (R205, R315), tiles (R64, R65, R255), banks (R268) and barriers
(R248). pad keys are byte offsets, padTag granules, padEmpty, padWriters and padFar lines (the last: filled through the cluster window, R242), padPoison ECC words of 8 bytes; tile keys
tile * 8192 + row * 128 + byte; scale keys tile * 1024 + row * 16 + block; tileBad and scaleBad mark the words of 8 bytes that an uncorrectable error
has hit (R213), by (tile * 64 + row) * 16 + word and by (tile * 64 + row) * 4 + word; bank keys bank * 4096 + row * 64 + column. -/
structure Block where
  launch     : Nat
  part       : Nat
  number     : Nat
  core       : Nat
  group      : Option (Nat × Nat)
  handler    : Bool
  hdr        : Header
  gangsLeft  : Nat
  blockCount : Nat
  pad        : Store Byte
  padTag     : Store Bool
  padEmpty   : Store Bool
  padWriters : Store Nat
  padFar     : Store Bool
  padPoison  : Store Bool
  tile       : Store Byte
  scale      : Store (BitVec 16)
  tileEmpty  : Store Bool
  tileBad    : Store Bool
  scaleBad   : Store Bool
  tcfg       : Store Word
  bank       : Store Word
  bankInfo   : Store BankInfo
  accstat    : Bool
  bars       : Store Barrier
  halt       : Option Halt
  /-- It has completed and holds nothing any more (R325); its entry stands for the commands and drains of its gangs that go on (R318; log 104). -/
  done       : Bool := false
  deriving DecidableEq, Repr, Inhabited

/-- A placed cluster group: its launch, size and cluster barriers (R23, R248). -/
structure Group where
  launch : Nat
  size   : Nat
  bars   : Store Barrier
  deriving DecidableEq, Repr, Inhabited

/-- A launch record in a queue (R28, R321): its 512 bits with the tags of granules 0 and 1, the flat address it was read
from, and for a graph node its partition's graph and node. -/
structure LaunchRec where
  bits  : BitVec 512
  tags  : BitVec 2
  addr  : Nat
  node  : Option (Nat × Nat)
  deriving DecidableEq, Repr, Inhabited

/-- A launch the dispatcher serves (R29, R322, R325): its record, header, next block to place and blocks left to complete. -/
structure Launch where
  part    : Nat
  record  : LaunchRec
  hdr     : Header
  next    : Nat
  left    : Nat
  taken   : Bool
  deriving DecidableEq, Repr, Inhabited

/-- A partition table entry (R376) with the state that belongs to the partition: TVEC (R68), removal from the turns by PHALT and the
cause of a failed restore (R370, R372), the halt of a failed frame store (R364), the eight launch queues (R321), the record being
served (R322), grid barriers with who holds each (R249: a launch or run and, for a
COMPLETION barrier, the number of the phase it holds it for) and handlers (R375). -/
structure Part where
  coreSet   : BitVec 512
  colour    : BitVec 8
  pasid     : BitVec 20
  savebase  : Word
  slicelen  : Word
  keyFirst  : Nat
  keyCount  : Nat
  flueFirst : Nat
  flueCount : Nat
  extentQuota : Nat
  seatQuota : Nat
  lineQuota : Nat
  inUse     : Bool
  tvec      : Word
  halted    : Bool
  failed    : Option Nat
  broken    : Bool
  queues    : Store (List LaunchRec)
  serving   : Option Nat
  grid      : Store Barrier
  gridHeld  : Store (Nat × Option Nat)
  handlers  : Store Cap
  deriving DecidableEq, Repr, Inhabited

/-- A context table entry (R378), with the import key of R411. -/
structure Context where
  state       : BitVec 2
  measurement : BitVec 512
  keySlot     : BitVec 6
  /-- Whether KEY SLOT holds this context's key: it has none where no slot was empty at its start (log 39). -/
  keyHeld     : Bool
  saveCounter : BitVec 64
  haltSeq     : BitVec 64
  importKey   : Option (BitVec 256)
  deriving DecidableEq, Repr, Inhabited

/-- A key slot (R379). -/
structure KeySlot where
  state  : BitVec 2
  colour : BitVec 8
  key    : BitVec 512
  deriving DecidableEq, Repr, Inhabited

/-- A bounce-buffer channel (R319). -/
structure Channel where
  state   : BitVec 2
  host    : BitVec 64
  device  : BitVec 64
  resync  : BitVec 2
  part    : Nat
  first   : Nat
  count   : Nat
  deriving DecidableEq, Repr, Inhabited

/-- A loaded task graph (R329 to R333): records, explicit and derived edges, COMPLETION, queued triggers (each its patches), and the run
in progress: per node the count and whether it is done. -/
structure Graph where
  part     : Nat
  number   : Nat
  nodes    : List LaunchRec
  edges    : List (Nat × Nat)
  completion : Nat
  triggers : List (List (Nat × Nat × Word))
  running  : Bool
  counts   : Store Nat
  entered  : List Nat
  waiting  : List Nat
  done     : List Nat
  failed   : Option (BitVec 16)
  deriving DecidableEq, Repr, Inhabited

/-- What an access does at its home slice (R218 to R231, R328, R332, R381, R401). -/
inductive Access where
  /-- A load, extended: 0 zero, 1 sign; keep means it may fill L1. -/
  | load (signed plain : Bool)
  | loadCap (keepTag : Bool)
  | store (bytes : List Byte)
  | storeCap (cap : Cap)
  | atomic (op : Nat) (data cmp : Word) (returns : Bool)
  | prefetch
  /-- WAITMEM: not-equal or equal against the comparand. -/
  | wait (ne : Bool) (cmp : Word)
  | launch (tags : Bool)
  | graph (graph : Nat)
  | hcmd
  | sign
  /-- A result made on the core itself and on its way to its registers: a slow control register, a scratchpad access, an accumulator
  read, a queue record (R57). -/
  | onCore
  /-- What has yet to come to registers: the next record of a result queue, to those that QRD has emptied (R302); the phase word of a barrier
  wait that is over, to an s register that must fill first (R59). -/
  | record (q : Nat)
  | phase (word : Word)
  /-- PHALT waits until a partition's context has left the cores that it occupied (R372). -/
  | phalt (part : Nat) (cores : List Nat)
  /-- A record that LAUNCH has read waits for an entry of its level (R321, R328), and a trigger that has passed its checks for one of its graph's
  queue (R332). -/
  | enter (rec : LaunchRec)
  | join (graph : Nat) (patches : List (Nat × Nat × Word))
  /-- BOARD's read and ALIGHT's write of a slot (R284, R285). -/
  | board (slot : Nat)
  | alight (slot : Nat)
  deriving DecidableEq, Repr, Inhabited

/-- How far an access has come. -/
inductive Stage where
  /-- On its way to its home slice. -/
  | sent
  /-- Waiting on the translation of its host page (R203, R204). -/
  | page
  /-- Its data is on the way back, as register words. -/
  | replied (words : List Word) (tag : Bool)
  /-- Rejected with a cause at a flat address (R174). -/
  | rejected (cause addr : Nat)
  /-- A WAITMEM lane that reads again (R224); what waits on the core itself. -/
  | waiting
  deriving DecidableEq, Repr, Inhabited

/-- One lane's access in flight (R171 to R174, R218). inst numbers the instruction that made it; lane is 32 for one made
once per issue, whose active lanes are mask. seat and gen name the seat and its context generation that the reply goes to (R48);
issued holds the gang's counts of issued instructions as the instruction left them (R174). A gang of 0 is none: the reply will be
discarded. pass and peers number the pass of an atomic and name its lanes (R227); a write waits for its lanes' accesses numbered
below wall (R236, R241); vis is the scope at which a fence makes a strong store a release, 0 for none (R236); seen names the lanes that
have read a store before it was performed (R239; log 89). -/
structure Req where
  inst   : Nat
  core   : Nat
  part   : Nat
  gang   : Nat
  seat   : Nat
  lane   : Nat
  mask   : Mask
  acc    : Access
  addr   : Nat
  size   : Nat
  cap    : Cap
  dests  : List Dest
  scope  : Nat
  acq    : Bool
  pc     : Word
  word   : Word
  pfx    : Word
  issued : List Nat
  gen    : BitVec 4
  stage  : Stage
  pass   : Nat := 0
  peers  : Mask := 0
  wall   : Nat := 0
  vis    : Nat := 0
  seen   : List (Nat × Nat) := []
  deriving DecidableEq, Repr, Inhabited

/-- A line of an L1 cache (R201), with the poison of its sixteen ECC words (R211, R213). -/
structure L1Line where
  line   : Nat
  data   : List Byte
  colour : BitVec 8
  gen    : BitVec 16
  bad    : BitVec 16 := 0
  deriving DecidableEq, Repr, Inhabited

/-- A valid line of a shared-cache slice: its number, the partition that filled it, whether it is dirty (R199, R200). A slice's
lines stand most recently used first. -/
structure CacheLine where
  line  : Nat
  part  : Nat
  dirty : Bool
  deriving DecidableEq, Repr, Inhabited

/-- A message in a queue (R339 to R344): the partition it is for, the sender's word (R348: ROUTE, PORT and CORE of the sender), the
destination word, and the payload. fromHandler says that a handler gang sent it (R340). -/
structure Msg where
  part    : Nat
  sender  : Word
  dest    : Word
  payload : List Word
  fromHandler : Bool
  deriving DecidableEq, Repr, Inhabited

/-- A message in its partition's overflow area: its place there, and the number that stands for the bytes written (R344; log 36). -/
structure Spilled where
  msg   : Msg
  place : Nat
  stamp : Nat
  deriving DecidableEq, Repr, Inhabited

/-- A core: the partition whose context occupies it, and by partition SLICECLK, PERF and PERFSEL (R50, R391); SOFTERR (R394); by seat CTXGEN
(R48); the damper (R335); L1 (R201); the message queues (R297). selNow is what PERFSEL selects for the rest of this clk, wrote the PERF
registers written in it (R391). work counts what R396 attributes core energy by since the last reconciliation: by event * 256 + colour,
event 0x12 being MACs and 0x13 bytes of tile images. -/
structure Core where
  occ      : Option Nat
  lastTurn : Nat
  sliceclk : Store Word
  perf     : Store Word
  perfsel  : Store (BitVec 8)
  selNow   : Store (BitVec 8)
  wrote    : List Nat
  work     : Store Nat
  softerr  : Word
  ctxgen   : Store (BitVec 4)
  l1       : List L1Line
  victims  : List Nat
  score    : Nat
  allow    : Nat
  outbound : List Msg
  inbound  : List Msg
  matrixBusy : Nat
  /-- The number of the damper window that ended last (R335). -/
  dampWin  : Nat
  /-- The slice has ended for good, or PHALT came: nothing issues until the context has drained and is saved (R47, R50). -/
  halting  : Bool
  deriving DecidableEq, Repr, Inhabited

/-- A matrix operand as read when the instruction starts or was issued (R256, R261 to R265). -/
structure MatrixOp where
  id     : Nat
  core   : Nat
  part   : Nat
  gang   : Nat
  block  : Nat
  bank   : Nat
  ta     : Nat
  tb     : Nat
  cfgA   : Word
  cfgB   : Word
  kFirst : Nat
  kCount : Nat
  bias   : Int
  neg    : Bool
  /-- For MMA.S: the weights capability, image address, pitch and rows. -/
  weights : Option (Cap × Nat × Nat × Nat)
  started : Bool
  /-- Operand rows (element words) and group scales captured at the start. -/
  rowsA  : List (List Nat)
  rowsB  : List (List Nat)
  /-- What the stationary port failed on (R267). -/
  fault  : Option (Nat × Nat)
  deriving DecidableEq, Repr, Inhabited

/-- A tile load on its way (R259): where from, and the instruction that made it. -/
structure TileOp where
  core   : Nat
  part   : Nat
  gang   : Nat
  block  : Nat
  tile   : Nat
  cfg    : Word
  space  : Nat
  cap    : Cap
  offset : Nat
  pitch  : Nat
  mask   : Mask
  pc     : Word
  word   : Word
  pfx    : Word
  issued : List Nat
  /-- The next row to land, ROWS standing for the scale area. -/
  next   : Nat
  fault  : Option (Nat × Nat)
  deriving DecidableEq, Repr, Inhabited

/-- A drain in flight (R271 to R274): the band's values as read, sectors not yet delivered, its target and barrier. -/
structure Drain where
  core   : Nat
  part   : Nat
  gang   : Nat
  block  : Nat
  bank   : Nat
  first  : Nat
  rows   : Nat
  cols   : Nat
  space  : Nat
  cap    : Cap
  offset : Nat
  pitch  : Nat
  add    : Bool
  barrier : Option BarRef
  data   : List Word
  next   : Nat
  /-- Its first failure: the bank's recorded fault, or a rejection (R273). -/
  fault  : Option (Nat × Nat)
  mask   : Mask
  pc     : Word
  word   : Word
  issued : List Nat
  /-- Its sectors wait for its lanes' accesses numbered below this (R241). -/
  wall   : Nat := 0
  deriving DecidableEq, Repr, Inhabited

/-- How far an engine command has come (R300, R313 to R317). -/
inductive EngineStage where
  | accepted
  | running
  | failing (code : BitVec 16)
  deriving DecidableEq, Repr, Inhabited

/-- An engine command accepted and not complete (R300 to R317): its words, the capabilities read at submission by role, how far it
is (row and byte within the row), the bytes it holds (a SEAL's or OPEN's ciphertext), the scratchpad lines it writes with the
bytes still to come (block, line, bytes), a SEAL's save counter, the RECVs its rows are matched with or the SEND a RECV is matched
with (R311), the shape record it read (R308), and its barrier. -/
structure Engine where
  core    : Nat
  part    : Nat
  gang    : Nat
  block   : Nat
  queue   : Nat
  words   : List (BitVec 64)
  src     : Cap
  dst     : Cap
  aux     : Cap
  stage   : EngineStage
  row     : Nat
  pos     : Nat
  buf     : List Byte
  lines   : List (Nat × Nat × Nat)
  counter : BitVec 64
  mates   : List Nat
  shape   : List Word
  bar     : Option BarRef
  deriving DecidableEq, Repr, Inhabited

/-- A flue slot (R280), with the poison of R296. -/
structure Slot where
  state  : BitVec 2
  data   : BitVec 128
  home   : BitVec 48
  colour : BitVec 8
  gen    : BitVec 16
  poison : Bool
  deriving DecidableEq, Repr, Inhabited

/-- What a flue operation does at its slot (R284 to R288). -/
inductive FlueKind where
  | board (data : Option (BitVec 128))
  | alight (sent : Bool)
  | peek
  | wait (ne : Bool) (cmp : Word)
  | cap (n op : Nat) (data : List Word)
  deriving DecidableEq, Repr, Inhabited

/-- A flue operation issued and not applied (R283, R290, R292). -/
structure FlueOp where
  inst   : Nat
  core   : Nat
  part   : Nat
  gang   : Nat
  lane   : Nat
  kind   : FlueKind
  slot   : Nat
  colour : BitVec 8
  cap    : Cap
  addr   : Nat
  dests  : List Dest
  ord    : Bool
  acq    : Bool
  rel    : Bool
  clk    : Nat
  pc     : Word
  word   : Word
  pfx    : Word
  issued : List Nat
  gen    : BitVec 4
  fault  : Option (Nat × Nat)
  /-- An alighting's store waits for its lane's accesses numbered below this (R241). -/
  wall   : Nat := 0
  deriving DecidableEq, Repr, Inhabited

/-- An entry of a reconfiguration list as it was read (R382, R385): its four words, the bytes of the data it names, and the capability it
names with its tag. -/
structure ListItem where
  words : List (BitVec 64)
  data  : List Byte
  caps  : List Cap
  deriving DecidableEq, Repr, Inhabited

/-- How far the list at the head of the command queue has come: not yet read; checked and accepted, with what was read of it, while a context
that it ends leaves its cores (R384) or an alighting that its teardown awaits completes (R295); or applied, while the extents
that it changed are still held somewhere under their old entries (R193). -/
inductive ListStage where
  | queued
  | accepted (items : List ListItem)
  | applied (extents : List Nat)
  deriving DecidableEq, Repr, Inhabited

/-- A list in the partition command queue (R381, R382): where it lies, its capability when HCMD entered it, where the result
goes (gang, s key), or the mailbox, and how far it has come. -/
structure CmdList where
  addr  : Nat
  cap   : Option (Cap × Nat)
  dest  : Option (Nat × Nat)
  stage : ListStage := .queued
  deriving DecidableEq, Repr, Inhabited

/-- The mailbox registers (R404) and the snapshot of the command it runs. -/
structure Mailbox where
  cmd    : Word
  args   : List Word
  data   : Store Byte
  result : Word
  busy   : Bool
  status : BitVec 16
  run    : Option (Word × List Word × List Byte)
  deriving DecidableEq, Repr, Inhabited

/-- Host events (R404, R406): the ring registers, entries held on chip, the ring in the host's memory by host address, and how often MSI-X vector
0 has been signalled. -/
structure Events where
  baseLo : Word
  baseHi : Word
  head   : Nat
  tail   : Nat
  lost   : Word
  held   : List (List Byte)
  ring   : List Host.Cell
  signals : Nat
  deriving DecidableEq, Repr, Inhabited

/-- A fabric port (R412, R413): up, the peer's identity and measurements, the port key, the pairs (local partition, peer
partition, pair key), what it sent last: granules, the tagged ones with their MAC; by local partition the granules that it has sealed under a
pair (R413; log 96); and the ciphertext of the key agreement that it sent, if this device is the lower one (R414). -/
structure Port where
  up    : Bool
  ident : BitVec 512
  meas  : Store (BitVec 512)
  key   : BitVec 256
  asked : List (Nat × Nat)
  pairs : List (Nat × Nat × BitVec 256)
  sent  : List (BitVec 128 × Option (BitVec 64))
  sealed : List (Nat × BitVec 128) := []
  cipher : List Byte := []
  deriving DecidableEq, Repr, Inhabited

/-- Energy accounts by colour, 256 the device account: microjoules and the 2^-32 fraction (R395); WINDOW, SEQUENCE, GAPS (R400). -/
structure Energy where
  counts : Store (BitVec 64)
  fracs  : Store Word
  window : BitVec 64
  seqNo  : BitVec 64
  gaps   : Word
  deriving DecidableEq, Repr, Inhabited

/-- The non-volatile store: the energy record (R400), the save counters by measurement (R384), and START NUMBER (R414). -/
structure NonVolatile where
  energy : Energy
  saves  : List (BitVec 512 × BitVec 64)
  start  : BitVec 64
  deriving DecidableEq, Repr, Inhabited

/-- A pass of the sweeper (R386): the extents that were sweeping and the colours that were retired when it began. -/
structure Sweep where
  extents : List Nat
  colours : List (BitVec 8)
  deriving DecidableEq, Repr, Inhabited

/-- An ATS translation request outstanding: the die that waits, PASID and page, the partition that asked first, and whether only prefetches have
asked (R203, R223). -/
structure AtsReq where
  die   : Nat
  pasid : Nat
  page  : Nat
  part  : Nat
  quiet : Bool
  deriving DecidableEq, Repr, Inhabited

/-- A page request: partition and page, its entry of the queue (0 waiting for one, 1 reserved, 2 of the pool), and the dies whose
translations it stands for (R203, R204). -/
structure PageReq where
  part  : Nat
  page  : Nat
  entry : Nat
  dies  : List Nat
  deriving DecidableEq, Repr, Inhabited

/-- Where an error in an on-chip memory strikes (R211): a word of 8 bytes of a scratchpad, of an L1 line, of a line of HBM that a slice holds (by its
number in flat memory), of a tile row or of a row's scale words; a flue slot; a v register in a lane; a k, s or c register; an accumulator
bank; or elsewhere: in a core's memories, in a slice's lines of the host window or its extent table, or in a table of the device. -/
inductive EccSite where
  | pad (block word : Nat)
  | l1 (core line word : Nat)
  | cached (word : Nat)
  | slot (n : Nat)
  | v (gang key lane : Nat)
  | k (gang key : Nat)
  | s (gang key : Nat)
  | c (gang key : Nat)
  | tile (block tile row word : Nat)
  | scale (block tile row word : Nat)
  | bank (block bank : Nat)
  | core (n : Nat)
  | slice (n : Nat)
  | table
  deriving DecidableEq, Repr

/-- What a move of the machine is: the issue of a split's next instruction (from the code lines numbered in stale as it holds them fetched, R245), a
step of the device, the host or a peer, one clk, a load that sees a store early, or an error in an on-chip memory. -/
inductive Move where
  | issue (gang entry : Nat) (stale : List Nat)
  /-- The core fetches a code line ahead for a split: the line's number (R164, R245; log 28). -/
  | fetchAhead (gang entry line : Nat)
  | dev (i : Instr)
  | tick
  /-- A load returns what a store that is still in flight will write, to a reader outside the store's scope (R239; log 89). -/
  | early (load store : Nat)
  /-- A read over I3C of the register at an offset (R415). -/
  | i3c (off : Nat)
  /-- ECC meets an error, which it corrects or not (R211 to R213). -/
  | ecc (site : EccSite) (corrected : Bool)
  deriving DecidableEq, Repr

/-- The instruction being issued: split, program counter, size in bytes, word and prefix. The model's own field: it is how
exec learns which split executes. -/
structure Issue where
  gang  : Nat
  entry : Nat
  pc    : Word
  size  : Nat
  word  : Word
  pfx   : Option Prefix
  pfxWord : Word
  deriving DecidableEq, Repr, Inhabited

/-- An instruction issued in the current clk (R334): the gang, the lanes of the split, the core, the quadrant, the sub-pipe by its event of
R392, and whether it enters the matrix engine. -/
structure Pick where
  gang   : Nat
  lanes  : Mask
  core   : Nat
  quad   : Nat
  pipe   : Nat
  matrix : Bool
  deriving DecidableEq, Repr, Inhabited

/-- The state of the part. -/
structure State where
  /-- clk since device reset (R68, R279); CLKLO, CLKHI and REV are read from it. -/
  clk       : BitVec 64
  /-- CLKSTEP (R16, R68), and how many last windows met both conditions of a step up. -/
  clkStep   : BitVec 2
  coolWins  : Nat
  /-- Module power and temperatures of the last window, for the health registers (R404). -/
  health    : Nat × List Nat
  confidential : Bool
  htvec     : Word
  /-- The hypervisor record (R352) and the hash of the code range it names (R410). -/
  hypRecord : Cap
  hypHash   : BitVec 512
  /-- Whether a list with a HYPERVISOR RECORD has been applied since the last scrub (R416). -/
  hypSet    : Bool
  /-- SWEEPPASS, the running pass, whether SWEEP asked for one, retired colours, and whether a free or a delete has completed since the
  last reset or scrub (R377, R386 to R388). -/
  sweepPass : Word
  sweep     : Option Sweep
  sweepAsked : Bool
  retired   : List (BitVec 8)
  freed     : Bool
  /-- HBM by byte address, its tags by 16-byte granule and poison by 32-byte word (R178, R189, R213). -/
  mem       : List Host.Cell
  tags      : Store Bool
  poison    : Store Bool
  /-- The words of 8 bytes of HBM, by number, that an uncorrectable error has hit in a slice (R211, R213). -/
  wordBad   : Store Bool
  /-- Host memory by PASID and address (R202): key PASID * 2^48 + address. -/
  hostMem   : List Host.Cell
  /-- Extent table (R192), tile geometry (R196), and extents whose change is not yet complete (R193). -/
  extents   : Store (BitVec 64)
  geometry  : Store Word
  changing  : List Nat
  /-- Valid lines per slice (R199), raised writers per channel (R338). -/
  slices    : Store (List CacheLine)
  raised    : Store (List Nat)
  /-- Host translations: (die, pasid, page, size, read-only) (R203, R367); outstanding ATS requests; page requests in arrival order (R204);
  the link is up. Pages are numbers of 4 KiB pages for requests, byte addresses and sizes for translations. -/
  xlate     : List (Nat × Nat × Nat × Nat × Bool)
  atsOut    : List AtsReq
  pageReqs  : List PageReq
  /-- Instructions and header reads that wait for a host page (R204): (gang, or 0 for the dispatcher and the handler spawner,
  partition, page, the cause that the page raises or 0 while none). -/
  pageWaits : List (Nat × Nat × Nat × Nat)
  linkUp    : Bool
  /-- Accesses in flight, in the order they were made. -/
  reqs      : Store Req
  /-- The shape-record cache: die and address, that of the host window by PASID, to the record's words (R243). -/
  shapes    : List (Nat × Nat × List Word)
  parts     : Store Part
  contexts  : Store Context
  keySlots  : Store KeySlot
  allowList : Store Word
  audit     : List (Nat × Nat)
  auditCount : BitVec 64
  nv        : NonVolatile
  channels  : Store Channel
  cmdQueue  : List CmdList
  graphs    : Store Graph
  launches  : Store Launch
  cores     : Store Core
  blocks    : Store Block
  groups    : Store Group
  gangs     : Store Gang
  matrix    : List MatrixOp
  tileOps   : Store TileOp
  drains    : Store Drain
  engines   : Store Engine
  /-- Flue slots (R280), round-robin pointers by stop (R290), operations by id. -/
  flue      : Store Slot
  flueRr    : Store Nat
  flueOps   : Store FlueOp
  /-- The stops whose grate has passed since the last clk. -/
  fluePassed : List Nat
  /-- The messages in the partitions' overflow areas, in arrival order (R344). -/
  overflow  : List Spilled
  mailbox   : Mailbox
  events    : Events
  /-- What the last read by the host, or over I3C, was answered with (R403, R404, R408, R415). -/
  hostAnswer : List Byte
  energy    : Energy
  /-- What the other components of R396 attribute energy by since the last reconciliation, by component * 256 + colour: 2 bytes of HBM4, 4
  beats of the crossbar, 5 live flue slots times clk, 6 bytes of the optics, 7 bytes of the host link. -/
  tally     : Store Nat
  /-- The clk of the last reconciliation (R396, R397). -/
  energyClk : BitVec 64
  /-- Corrected and uncorrected counts: 0-127 slices, 128-135 stacks, 136 flue, 1024 + n the uncorrected counts, 2048 + core the uncorrected
  counts of cores (R394). -/
  soft      : Store Word
  ports     : Store Port
  /-- What the device keeps of its sealed records, by partition * 512 + core and by partition * 1024 + record: the sequence value used, and
  the number that stands for what was sealed (R370; log 10). -/
  coreRecs  : Store (Nat × Nat)
  evictRecs : Store (Nat × Nat)
  /-- The model's own: the instruction being issued, the moves chosen next, a counter of free values, a counter of ids, and the
  splits that the default schedule has looked at in this clk. -/
  cur       : Issue
  agenda    : List Move
  fresh     : Nat
  nextId    : Nat
  tried     : List (Nat × Nat)
  /-- What has issued in this clk (R334). -/
  picks     : List Pick
  /-- The split that the progress bound lets issue past the damper (R42). -/
  urgent    : Option (Nat × Nat)
  deriving DecidableEq, Repr

/-- Why a step stops with a fault. -/
inductive Fault where
  /-- exec was asked for an instruction, or a move named an issue, and no resident split stands under cur. Raised by the
  issue frame of Machine/Issue.lean. Safe: no step raises it, since step issues only for a split that is there. -/
  | noIssuer
  deriving DecidableEq, Repr

/-- Why a step is refused. -/
inductive Refusal where
  /-- The instruction has no meaning in this model; raised by exec's refused arms only. Safe. -/
  | notModelled (mnemonic : String)
  deriving DecidableEq, Repr

/-- The state of a core at device reset: no occupant, the damper's allowance 32 (R335). -/
def Core.reset : Core :=
  { occ := none, lastTurn := 63, sliceclk := [], perf := [], perfsel := [], selNow := [], wrote := [], work := [], softerr := 0, ctxgen := [], l1 := [], victims := [], score := 0,
    allow := 32, outbound := [], inbound := [], matrixBusy := 0, dampWin := 0, halting := false }

/-- The machine right after device reset (R16, R53, R68, R189, R279, R297, R375, R390, R395, R404, R407, R416). The scrub of R416 leaves HBM
zero with its tags clear. The non-volatile store starts empty, the host link is up and the mode strap selects no confidential
mode: log entries 2 to 6. No core holds a context, so nothing issues (R416). -/
def State.reset : State :=
  let e : Energy := { counts := [], fracs := [], window := 0, seqNo := 0, gaps := 0 }
  { clk := 0, clkStep := 0, coolWins := 0, health := (0, []), confidential := false, htvec := 0, hypRecord := ⟨0, false⟩, hypHash := 0,
    hypSet := false, sweepPass := 0, sweep := none, sweepAsked := false, retired := [], freed := false, mem := [], tags := [], poison := [], wordBad := [],
    hostMem := [], extents := [], geometry := [], changing := [], slices := [], raised := [], xlate := [], atsOut := [], pageReqs := [], pageWaits := [],
    linkUp := true, reqs := [], shapes := [], parts := [], contexts := [], keySlots := [], allowList := [], audit := [], auditCount := 0,
    nv := { energy := e, saves := [], start := 0 }, channels := [], cmdQueue := [], graphs := [], launches := [], cores := [],
    blocks := [], groups := [], gangs := [], matrix := [], tileOps := [], drains := [], engines := [], flue := [], flueRr := [],
    flueOps := [], fluePassed := [], overflow := [],
    mailbox := { cmd := 0, args := [0, 0, 0, 0], data := [], result := 0, busy := false, status := 0, run := none },
    events := { baseLo := 0, baseHi := 0, head := 0, tail := 0, lost := 0, held := [], ring := [], signals := 0 },
    hostAnswer := [], energy := e, tally := [], energyClk := 0, soft := [], ports := [], coreRecs := [], evictRecs := [],
    cur := { gang := 0, entry := 0, pc := 0, size := 0, word := 0, pfx := none, pfxWord := 0 }, agenda := [], fresh := 0, nextId := 1,
    tried := [], picks := [], urgent := none }

end Sys2Proof.Machine
end

