-- ==== Sys2Proof/Machine/Ops.lean ====
section
/-! DEFINITION. The named operations over stores, capabilities, registers, memory, splits and stacks; host events; taking a
trap and returning from one. -/

namespace Sys2Proof.Machine

/-! ### Stores -/

/-- What a store lists under a key. -/
def look {α : Type} : List (Nat × α) → Nat → Option α
  | [], _ => none
  | (j, x) :: r, k => if j = k then some x else look r k

/-- What a store with a default reads. -/
def lookD {α : Type} (d : α) (m : List (Nat × α)) (k : Nat) : α := (look m k).getD d

/-- Lists a value under a key, keeping the keys rising. -/
def set {α : Type} : List (Nat × α) → Nat → α → List (Nat × α)
  | [], k, v => [(k, v)]
  | (j, x) :: r, k, v => if k < j then (k, v) :: (j, x) :: r else if k = j then (k, v) :: r else (j, x) :: set r k v

/-- Removes a key. -/
def del {α : Type} : List (Nat × α) → Nat → List (Nat × α)
  | [], _ => []
  | (j, x) :: r, k => if k = j then del r k else (j, x) :: del r k

/-- Writes a store with a default: the default is never listed. -/
def put {α : Type} [DecidableEq α] (d : α) (m : List (Nat × α)) (k : Nat) (v : α) : List (Nat × α) :=
  if v = d then del m k else set m k v

/-- The canonical form of a store: keys strictly rising. -/
def rising {α : Type} : List (Nat × α) → Bool
  | [] => true
  | [_] => true
  | (j, _) :: (k, y) :: r => decide (j < k) && rising ((k, y) :: r)

/-- The canonical form of a store with a default: rising keys and no entry equal to the default. -/
def canonical {α : Type} [DecidableEq α] (d : α) (m : List (Nat × α)) : Bool :=
  rising m && m.all fun e => decide (e.2 ≠ d)

/-- The canonical form of HBM and host memory: an unlisted byte reads 0. -/
abbrev Memory.wf (m : List Host.Cell) : Prop := canonical (0 : Byte) m = true

/-- Applies f to what stands under a key, if anything does. -/
def modify {α : Type} (m : List (Nat × α)) (k : Nat) (f : α → α) : List (Nat × α) :=
  match look m k with
  | some x => set m k (f x)
  | none => m

/-! ### Masks -/

/-- By lane, the counts of instructions issued after one more by the lanes of a mask (R174). -/
def bumpTicks (t : List Nat) (m : Mask) : List Nat := lanes.map fun l => t.getD l 0 + if m.getLsbD l then 1 else 0

/-- The lanes of a mask, lowest first. -/
def lanesOf (m : Mask) : List Nat := lanes.filter m.getLsbD

/-- The mask of one lane. -/
def bit (l : Nat) : Mask := 1#32 <<< l

/-- The mask of the lanes that meet a condition. -/
def maskOf (p : Nat → Bool) : Mask := (lanes.filter p).foldl (fun m l => m ||| bit l) 0

/-- The lowest lane of a mask; 0 for the empty mask. -/
def lowest (m : Mask) : Nat := (lanesOf m).headD 0

/-! ### Capabilities (R167, R168) -/

def Cap.base (c : Cap) : Nat := (c.bits.extractLsb' 84 44).toNat
def Cap.len (c : Cap) : Nat := (c.bits.extractLsb' 44 40).toNat
def Cap.perm (c : Cap) : BitVec 8 := c.bits.extractLsb' 36 8
def Cap.colour (c : Cap) : BitVec 8 := c.bits.extractLsb' 28 8
def Cap.gen (c : Cap) : BitVec 16 := c.bits.extractLsb' 12 16
def Cap.type (c : Cap) : Nat := (c.bits.extractLsb' 4 8).toNat
/-- The first flat address of the range. -/
def Cap.flat (c : Cap) : Nat := c.base * 16
/-- All zeros with the tag clear (R30). -/
def Cap.null : Cap := ⟨0, false⟩

/-- Builds a capability from its fields (R167). -/
def Cap.make (base len : Nat) (perm colour : BitVec 8) (gen : BitVec 16) (type : Nat) (tag : Bool) : Cap :=
  ⟨BitVec.ofNat 44 base ++ BitVec.ofNat 40 len ++ perm ++ colour ++ gen ++ BitVec.ofNat 8 type ++ 0#4, tag⟩

/-- Permission bits (R168). -/
abbrev permR : BitVec 8 := 0x01
abbrev permW : BitVec 8 := 0x02
abbrev permX : BitVec 8 := 0x04
abbrev permLC : BitVec 8 := 0x08
abbrev permSC : BitVec 8 := 0x10
abbrev permMS : BitVec 8 := 0x20
abbrev permSEAL : BitVec 8 := 0x40
abbrev permSYS : BitVec 8 := 0x80

/-- Whether a capability grants every right of a mask. -/
def Cap.allows (c : Cap) (p : BitVec 8) : Bool := c.perm &&& p == p

/-- Orders 1 to 4 of R172 for a use of the given type and permission over size bytes at an offset (R171, R172). -/
def check14 (c : Cap) (type : Nat) (perm : BitVec 8) (off : Int) (size : Nat) : Option Nat :=
  if !c.tag then some 1
  else if c.type != type then some 6
  else if !c.allows perm || c.allows (permW ||| permX) then some 3
  else if off < 0 || off + (size : Int) > (c.len : Int) then some 2
  else none

/-- The flat address of an offset of a capability, in the 48-bit space (R171). -/
def Cap.at (c : Cap) (off : Int) : Nat := (((c.flat : Int) + off) % 2 ^ 48).toNat

/-- Orders 1 to 5 of R172, with the alignment of R214: the cause and the faulting flat address. -/
def check15 (c : Cap) (perm : BitVec 8) (off : Int) (size align : Nat) : Option (Nat × Nat) :=
  match check14 c 0 perm off size with
  | some cause => some (cause, c.at off)
  | none => if c.at off % align != 0 then some (16, c.at off) else none

/-! ### Bytes and words -/

/-- The little-endian value of bytes (R5). -/
def leNat : List Byte → Nat
  | [] => 0
  | b :: r => b.toNat + 256 * leNat r

/-- The n low bytes of a value, lowest first (R5). -/
def leBytes : Nat → Nat → List Byte
  | 0, _ => []
  | n + 1, v => BitVec.ofNat 8 v :: leBytes n (v / 256)

/-- Cuts a byte list into 32-bit words. -/
def wordsOf : Nat → List Byte → List Word
  | 0, _ => []
  | n + 1, bs => BitVec.ofNat 32 (leNat (bs.take 4)) :: wordsOf n (bs.drop 4)

/-! ### Extents and home slices (R190 to R197) -/

/-- Whether a flat address lies in the host window, and in HBM (R190). -/
def isHost (a : Nat) : Bool := decide (0x800000000000 ≤ a)
def isHbm (a : Nat) : Bool := decide (a < 0x6000000000)

def extentOf (a : Nat) : Nat := a / 0x200000
def State.extent (s : State) (e : Nat) : BitVec 64 := lookD 0 s.extents e
def extState (x : BitVec 64) : Nat := (x.extractLsb' 62 2).toNat
def extTiled (x : BitVec 64) : Bool := x.getLsbD 61
def extCipher (x : BitVec 64) : Bool := x.getLsbD 60
def extKey (x : BitVec 64) : Nat := (x.extractLsb' 54 6).toNat
def extGeometry (x : BitVec 64) : Nat := (x.extractLsb' 46 8).toNat
def extOwner (x : BitVec 64) : BitVec 8 := x.extractLsb' 32 8
def extGen (x : BitVec 64) : BitVec 16 := x.extractLsb' 16 16

/-- The extents that size bytes at a touch; a size of 0 touches the extent of a. -/
def extentsOf (a size : Nat) : List Nat :=
  (List.range (extentOf (a + size - 1) + 1 - extentOf a)).map (· + extentOf a)

/-- The lowest address of an access that lies in extent e. -/
def firstIn (a e : Nat) : Nat := max a (e * 0x200000)

/-- The home slice of an address (R195, R197). -/
def State.homeSlice (s : State) (a : Nat) : Nat :=
  let x := s.extent (extentOf a)
  if isHbm a && extTiled x then
    let g := lookD 0 s.geometry (extGeometry x)
    let w := 128 * 2 ^ (g.extractLsb' 24 4).toNat
    let r := (g.extractLsb' 18 6).toNat + 1
    let p := 128 * (g.extractLsb' 0 15).toNat
    let o := a % 0x200000
    ((o % p) / w + (o / p) / r + extentOf a) % 128
  else ((a / 2 ^ 7) % 128) ^^^ ((a / 2 ^ 14) % 128)

/-- The HBM stack of an address (R194). -/
def stackOf (a : Nat) : Nat := ((a / 2 ^ 11) % 8) ^^^ ((a / 2 ^ 21) % 8)

/-- Orders 6 and 7 of R172 over every extent an access touches (R177): the cause, and the lowest address in an extent that fails
the deciding order. The host window port makes order 7 against the partition's colour (R202). -/
def State.check67 (s : State) (part : Part) (colour : BitVec 8) (gen : BitVec 16) (writes : Bool) (a size : Nat) : Option (Nat × Nat) :=
  if isHost a then (if colour != part.colour then some (4, a) else none)
  else
    let es := extentsOf a size
    match es.find? fun e => let x := s.extent e; extState x == 0 || extState x == 3 || extGen x != gen with
    | some e => some (5, firstIn a e)
    | none =>
      match es.find? fun e => let x := s.extent e; extOwner x != colour && !(extState x == 2 && !writes) with
      | some e => some (4, firstIn a e)
      | none => none

/-- The check of the device's own accesses to a context area (R442). -/
def State.ownArea (s : State) (part : Part) (a size : Nat) : Bool :=
  (extentsOf a size).all fun e => isHbm a && extState (s.extent e) == 1 && extOwner (s.extent e) == part.colour

/-! ### Memory -/

/-- One byte of device memory: HBM and the shared cache together hold one value per byte. Unlisted bytes read 0. -/
def State.byte (s : State) (a : Nat) : Byte := lookD 0 s.mem a
def readFrom (m : List Host.Cell) (a : Nat) : Nat → List Byte
  | 0 => []
  | n + 1 => lookD 0 m a :: readFrom m (a + 1) n
def writeTo (m : List Host.Cell) (a : Nat) : List Byte → List Host.Cell
  | [] => m
  | b :: r => writeTo (put 0 m a b) (a + 1) r

/-- The bytes of an access: HBM, or the host's memory under a PASID (R202). -/
def State.bytesAt (s : State) (pasid a n : Nat) : List Byte :=
  if isHost a then readFrom s.hostMem (pasid * 2 ^ 48 + a) n else readFrom s.mem a n

/-- The granules (or, with u = 32, the ECC words) that n bytes at a overlap. -/
def unitsOf (u a n : Nat) : List Nat := if n = 0 then [] else (List.range ((a + n - 1) / u + 1 - a / u)).map (· + a / u)

/-- Clears the tags of the granules a write overlaps (R179). -/
def clearTags (t : Store Bool) (gs : List Nat) : Store Bool := gs.foldl (fun t g => put false t g false) t

def State.part (s : State) (p : Nat) : Option Part := look s.parts p

/-- The context area's base (R358). -/
def Part.area (p : Part) : Nat := p.savebase.toNat * 65536

/-- Whether a word meets the condition of a WAITMEM (R224). -/
def waitMet (ne : Bool) (cmp x : Word) : Bool := if ne then x != cmp else x == cmp

/-- Every waiting lane evaluates the value its word now has (R224). -/
def evalWaits (s : State) (pasidOf : Nat → Nat) (a n : Nat) : State :=
  { s with reqs := s.reqs.map fun (id, r) =>
      match r.acc, r.stage with
      | .wait ne cmp, .waiting =>
        if r.addr < a + n && a < r.addr + 4 &&
            waitMet ne cmp (BitVec.ofNat 32 (leNat (s.bytesAt (pasidOf r.part) r.addr 4))) then
          (id, { r with stage := .replied [] false })
        else (id, r)
      | _, _ => (id, r) }

def State.pasid (s : State) (p : Nat) : Nat := ((s.part p).map (·.pasid.toNat)).getD 0

/-- The ECC words of u bytes that a write of n bytes at a covers whole (R213). -/
def wordsIn (u a n : Nat) : List Nat := (unitsOf u a n).filter fun k => decide (a ≤ k * u) && decide (k * u + u ≤ a + n)

/-- Writes bytes at a flat address as one write: tags of the granules it overlaps clear (R179), a poisoned ECC word it covers whole is
cured (R213), and waiting lanes evaluate the new value (R224). -/
def State.writeBytes (s : State) (pasid a : Nat) (bs : List Byte) : State :=
  if isHost a then
    evalWaits { s with hostMem := writeTo s.hostMem (pasid * 2 ^ 48 + a) bs } s.pasid a bs.length
  else
    let n := bs.length
    evalWaits { s with
      mem := writeTo s.mem a bs
      tags := clearTags s.tags (unitsOf 16 a n)
      poison := clearTags s.poison (wordsIn 32 a n)
      wordBad := clearTags s.wordBad (wordsIn 8 a n) } s.pasid a n

/-- The tag of the granule that holds an address (R178). -/
def State.tagAt (s : State) (a : Nat) : Bool := !isHost a && lookD false s.tags (a / 16)

/-- Reads a granule with its tag. -/
def State.capAt (s : State) (a : Nat) : Cap := ⟨BitVec.ofNat 128 (leNat (s.bytesAt 0 a 16)), s.tagAt a⟩

/-- Writes a granule and its tag in one step (R179, R220). -/
def State.writeCap (s : State) (a : Nat) (c : Cap) : State :=
  let s := s.writeBytes 0 a (leBytes 16 c.bits.toNat)
  { s with tags := put false s.tags (a / 16) c.tag }

/-! ### The other tables -/

def State.core (s : State) (n : Nat) : Core := lookD Core.reset s.cores n
def State.setCore (s : State) (n : Nat) (c : Core) : State := { s with cores := put Core.reset s.cores n c }
def State.gang (s : State) (g : Nat) : Option Gang := look s.gangs g
def State.setGang (s : State) (g : Nat) (x : Gang) : State := { s with gangs := set s.gangs g x }
def State.block (s : State) (b : Nat) : Option Block := look s.blocks b
def State.setBlock (s : State) (b : Nat) (x : Block) : State := { s with blocks := set s.blocks b x }
def State.setPart (s : State) (p : Nat) (x : Part) : State := { s with parts := set s.parts p x }
def Context.none : Context :=
  { state := 0, measurement := 0, keySlot := 0, keyHeld := false, saveCounter := 0, haltSeq := 0, importKey := Option.none }
def State.context (s : State) (p : Nat) : Context := lookD Context.none s.contexts p
def State.setContext (s : State) (p : Nat) (c : Context) : State := { s with contexts := put Context.none s.contexts p c }
def Slot.vacant : Slot := { state := 0, data := 0, home := 0, colour := 0, gen := 0, poison := false }
def State.slot (s : State) (n : Nat) : Slot := lookD Slot.vacant s.flue n
def State.setSlot (s : State) (n : Nat) (x : Slot) : State := { s with flue := put Slot.vacant s.flue n x }

/-- Takes a new id. -/
def State.newId (s : State) : State × Nat := ({ s with nextId := s.nextId + 1 }, s.nextId)

/-- The colour of a partition, as a number. -/
def State.colourOf (s : State) (part : Nat) : Nat := ((s.part part).map (·.colour.toNat)).getD 0

/-- Counts n occurrences of an event of a partition on a core. The performance counters of the partition that occupies the core count it, by
the events selected as this clk began, but not into a register that this clk has written (R391, R392); and its energy does (R396). -/
def State.count (s : State) (core part ev n : Nat) : State :=
  if n == 0 then s
  else
    let c := s.core core
    let hits := if c.occ == some part then c.selNow.filter fun (k, e) => k / 16 == part && e.toNat == ev && !c.wrote.contains k else []
    let w := ev * 256 + s.colourOf part
    s.setCore core { c with
      perf := hits.foldl (fun m (k, _) => put 0 m k (lookD 0 m k + BitVec.ofNat 32 n)) c.perf
      work := put 0 c.work w (lookD 0 c.work w + n) }

/-- Adds to what a component's energy is attributed by (R396). -/
def State.use (s : State) (component part n : Nat) : State :=
  let k := component * 256 + s.colourOf part
  { s with tally := put 0 s.tally k (lookD 0 s.tally k + n) }

/-- What an access moves counts toward its partition's energy: the beats of its request and its reply, and the bytes on the host link (R396;
log 94). -/
def State.carry (s : State) (part a size : Nat) : State :=
  let s := s.use 4 part (2 * ((size + 63) / 64))
  if isHost a then s.use 7 part size else s

/-! ### The shared cache (R199, R200) -/

/-- The valid lines of a slice after an access to a line, the lines that come in, and the line that goes: a hit moves to the front, and a fill
takes a way as R200 orders. -/
def cacheTouch (quota : Nat → Nat) (ls : List CacheLine) (line part : Nat) (write : Bool) : List CacheLine × Nat × Option CacheLine :=
  match ls.find? (·.line == line) with
  | some x => ({ x with dirty := x.dirty || write } :: ls.filter (·.line != line), 0, none)
  | none =>
    let inSet := ls.filter fun x => Config.cacheSet x.line == Config.cacheSet line
    let new : CacheLine := { line := line, part := part, dirty := write }
    let above := fun (x : CacheLine) => decide (quota x.part < (ls.filter fun y => y.part == x.part).length)
    if inSet.length < 16 then (new :: ls, 1, none)
    else match inSet.reverse.find? above with
      | some v => (new :: ls.filter (·.line != v.line), 1, some v)
      | none => match inSet.reverse.find? (·.part == part) with
        | some v => (new :: ls.filter (·.line != v.line), 1, some v)
        | none => (ls, 1, none)

/-- The number of the line of an address: that of the host window counts by PASID (R202). -/
def State.lineOf (s : State) (part a : Nat) : Nat := (if isHost a then s.pasid part * 2 ^ 48 + a else a) / 128

/-- An access of a partition passes through the home slice of an address. A line that comes from or goes to HBM4 counts as bytes of the
partition that asked for it or filled it (R396). -/
def State.touchLine (s : State) (a part : Nat) (write : Bool) : State :=
  let h := s.homeSlice a
  let quota := fun p => ((s.part p).map fun x => x.lineQuota / 128).getD 0
  let (ls, n, gone) := cacheTouch quota (lookD [] s.slices h) (s.lineOf part a) part write
  let s := { s with slices := put [] s.slices h ls }
  let s := if n == 0 || isHost a then s else s.use 2 part 128
  match gone with
  | some v => if v.dirty && !isHost (v.line * 128) then s.use 2 v.part 128 else s
  | none => s

/-- An access passes through the home slices of every line of a run. -/
def State.touchRun (s : State) (a n part : Nat) (write : Bool) : State :=
  (unitsOf 128 a n).foldl (fun s u => s.touchLine (u * 128) part write) s

/-- An access that is no partition's passes through the home slices: it finds the lines they hold, and fills none (R200; log 72). -/
def State.touchHeld (s : State) (a n : Nat) (write : Bool) : State :=
  (unitsOf 128 a n).foldl (fun s u =>
    if (lookD [] s.slices (s.homeSlice (u * 128))).any (·.line == u) then s.touchLine (u * 128) 64 write else s) s

/-- The device writes bytes of HBM for a partition, through their home slices (R200). -/
def State.devWrite (s : State) (part a : Nat) (bs : List Byte) : State := (s.writeBytes 0 a bs).touchRun a bs.length part true

/-- The gangs that stand in one block. -/
def State.gangsOf (s : State) (b : Nat) : List (Nat × Gang) := s.gangs.filter fun (_, g) => g.block == b

/-- The counts of issued instructions of a gang's lanes once those of a mask have issued one more (R174). -/
def Gang.ticksWith (g : Gang) (m : Mask) : List Nat := bumpTicks g.ticks m

def Gang.compat (s : State) (g : Gang) : Bool := ((s.block g.block).map (·.hdr.compat)).getD false
def State.coreOf (s : State) (g : Gang) : Nat := ((s.block g.block).map (·.core)).getD 0
def State.partOf (s : State) (g : Gang) : Nat := ((s.block g.block).map (·.part)).getD 0

/-! ### Host events (R406) -/

/-- The bytes of a host event. -/
def eventBytes (type cause code addr kind num : Nat) : List Byte :=
  leBytes 2 type ++ leBytes 1 cause ++ leBytes 1 0 ++ leBytes 4 (kind * 2 ^ 24 + num % 2 ^ 24) ++ leBytes 8 addr ++ leBytes 2 code ++
    leBytes 14 0

/-- The ring's address in the host's memory; its low 12 bits are taken as 0 (R404; log 113). -/
def Events.base (e : Events) : Nat := (e.baseHi.toNat * 2 ^ 32 + e.baseLo.toNat) / 4096 * 4096

/-- Writes held entries into the ring while it has room, each with a signal of MSI-X vector 0. -/
def flushEvents : Nat → Events → Events
  | 0, e => e
  | n + 1, e =>
    match e.held with
    | [] => e
    | b :: r =>
      if (e.head + 1) % 4096 == e.tail then e
      else flushEvents n { e with
        held := r, ring := writeTo e.ring (e.base + 32 * e.head) b, head := (e.head + 1) % 4096, signals := e.signals + 1 }

/-- Posts a host event: into the ring, held on chip, or dropped and counted. In confidential mode a flat address is written as 0;
slot numbers (type 3) are still given. -/
def State.post (s : State) (type cause code addr kind num : Nat) : State :=
  let addr := if s.confidential && type != 3 then 0 else addr
  let e := s.events
  if e.held.length < 256 then
    { s with events := flushEvents 257 { e with held := e.held ++ [eventBytes type cause code addr kind num] } }
  else { s with events := { e with lost := if e.lost == BitVec.allOnes 32 then e.lost else e.lost + 1 } }

/-- Pairs of a port end, and with them what was sealed under them (R413). -/
def Port.unpair (p : Port) (gone : Nat × Nat × BitVec 256 → Bool) : Port :=
  { p with
    pairs := p.pairs.filter fun x => !gone x
    sealed := p.sealed.filter fun y => !p.pairs.any fun x => x.1 == y.1 && gone x }

/-- The key of a partition's context, in its key slot; 0 for a context without one (R370, R378; log 39). -/
def State.keyOf (s : State) (part : Nat) : BitVec 512 :=
  let c := s.context part
  if c.keyHeld then (lookD { state := 0, colour := 0, key := 0 } s.keySlots c.keySlot.toNat : KeySlot).key else 0

/-- LOCATION of a seat (R406). -/
def seatLoc (core seat : Nat) : Nat := core * 34 + seat

/-! ### Registers (R53 to R62) -/

/-- The bank number of a mode. -/
def bankOf : Mode → Nat
  | .u => 0
  | .s => 1
  | .h => 2

/-- The key of v register r named in a mode (R54), of s register r (R61), of c register r (R62). -/
def vKey (m : Mode) (r : Nat) : Nat := (if 56 ≤ r then bankOf m else 0) * 64 + r
def sKey (m : Mode) (r : Nat) : Nat := (if 56 ≤ r then bankOf m else 0) * 64 + r
def cKey (m : Mode) (r : Nat) : Nat := (if 14 ≤ r then bankOf m else 0) * 16 + r

def Gang.vAt (g : Gang) (key lane : Nat) : Word := lookD 0 g.v (key * 32 + lane)
def Gang.vFull (g : Gang) (key lane : Nat) : Bool := !(lookD 0 g.vEmpty key).getLsbD lane
def Gang.tagAt (g : Gang) (key lane : Nat) : Bool := (lookD 0 g.vTag (key / 4)).getLsbD lane
def Gang.sAt (g : Gang) (key : Nat) : Word := lookD 0 g.s key
def Gang.sFull (g : Gang) (key : Nat) : Bool := !lookD false g.sEmpty key
def Gang.kAt (g : Gang) (k lane : Nat) : Bool := k == 0 || (lookD 0 g.k k).getLsbD lane

/-- Writes one lane of a v register: it becomes full, the lane's quad tag clears (R55), and an error it held is gone (R213). -/
def Gang.setV (g : Gang) (key lane : Nat) (x : Word) : Gang :=
  { g with
    v := put 0 g.v (key * 32 + lane) x
    vBad := put 0 g.vBad key (lookD 0 g.vBad key &&& ~~~bit lane)
    vEmpty := put 0 g.vEmpty key (lookD 0 g.vEmpty key &&& ~~~bit lane)
    vTag := put 0 g.vTag (key / 4) (lookD 0 g.vTag (key / 4) &&& ~~~bit lane) }

/-- Writes a v register in each lane of a list. -/
def Gang.setVs (g : Gang) (key : Nat) (ls : List Nat) (f : Nat → Word) : Gang := ls.foldl (fun g l => g.setV key l (f l)) g

/-- Empties a v register in the lanes of a mask (R57). -/
def Gang.emptyV (g : Gang) (key : Nat) (m : Mask) : Gang := { g with vEmpty := put 0 g.vEmpty key (lookD 0 g.vEmpty key ||| m) }

/-- Sets a lane's full bit without changing its value (R359). -/
def Gang.refillV (g : Gang) (key lane : Nat) : Gang :=
  { g with vEmpty := put 0 g.vEmpty key (lookD 0 g.vEmpty key &&& ~~~bit lane) }

/-- Writes an s register, full (R61). -/
def Gang.setS (g : Gang) (key : Nat) (x : Word) : Gang :=
  { g with s := put 0 g.s key x, sEmpty := put false g.sEmpty key false, sBad := put false g.sBad key false }
def Gang.emptyS (g : Gang) (key : Nat) : Gang := { g with sEmpty := put false g.sEmpty key true }
def Gang.refillS (g : Gang) (key : Nat) : Gang := { g with sEmpty := put false g.sEmpty key false }

/-- Writes a k register in the lanes of a mask; k0 ignores every write (R56). -/
def Gang.setK (g : Gang) (k : Nat) (m value : Mask) : Gang :=
  if k == 0 then g
  else { g with k := put 0 g.k k ((lookD 0 g.k k &&& ~~~m) ||| (value &&& m)), kBad := put 0 g.kBad k (lookD 0 g.kBad k &&& ~~~m) }

/-- Writes a c register (R62). -/
def Gang.setC (g : Gang) (key : Nat) (x : Cap) : Gang := { g with c := put Cap.null g.c key x, cBad := put false g.cBad key false }

/-- Reads quad r of a lane with its tag: bits [31:0] lie in the lowest register (R55). -/
def Gang.quadAt (g : Gang) (key lane : Nat) : Cap :=
  ⟨g.vAt (key + 3) lane ++ g.vAt (key + 2) lane ++ g.vAt (key + 1) lane ++ g.vAt key lane, g.tagAt key lane⟩

/-- Writes a quad of a lane and its tag (R55). -/
def Gang.setQuad (g : Gang) (key lane : Nat) (c : Cap) : Gang :=
  let g := (List.range 4).foldl (fun g i => g.setV (key + i) lane (c.bits.extractLsb' (32 * i) 32)) g
  { g with vTag := put 0 g.vTag (key / 4) (if c.tag then lookD 0 g.vTag (key / 4) ||| bit lane
      else lookD 0 g.vTag (key / 4) &&& ~~~bit lane) }

/-- The key of a split's own trap record: its depth, or 4 in the DOUBLE state (R363). -/
def Split.trapKey (sp : Split) : Nat := if sp.dbl then 4 else sp.depth

/-- Reads c register r as a split names it. In S and H mode c15 is the capability to the split's own frame (R62, R356). -/
def Gang.cAt (g : Gang) (sp : Split) (r : Nat) : Cap :=
  if r == 15 && sp.mode != .u then ((look g.traps sp.trapKey).map (·.frame)).getD Cap.null
  else lookD Cap.null g.c (cKey sp.mode r)

/-! ### Stacks, spills, splits (R31 to R35) -/

def modeBits (m : Mode) : Nat := bankOf m

/-- The seat record of a gang (R358). -/
def State.seatRecord (s : State) (g : Gang) : Nat :=
  match s.block g.block with
  | some b => match s.part b.part with
    | some p => p.area + 0x10000 + seatLoc b.core g.seat * 512
    | none => 0
  | none => 0

/-- Whether the device may reach the gang's seat record (R442). -/
def State.seatOk (s : State) (g : Gang) : Bool :=
  match s.block g.block with
  | some b => match s.part b.part with
    | some p => s.ownArea p (s.seatRecord g) 512
    | none => false
  | none => false

/-- The eight bytes of a spilled entry (R33). -/
def spillBytes (sp : Spill) (e : StackEntry) (valid : Bool) : List Byte :=
  leBytes 8 (e.mask.toNat * 2 ^ 32 + sp.entry * 2 ^ 30 + modeBits sp.mode * 2 ^ 28 + sp.depth * 2 ^ 26 + (if valid then 2 ^ 25 else 0) +
    e.pc.toNat % 2 ^ 25)

/-- Marks every gang of a block stopped. -/
def State.stopGangs (s : State) (b : Nat) : State :=
  { s with gangs := s.gangs.map fun (k, g) => if g.block == b then (k, { g with stopped := true }) else (k, g) }

/-- A partition halts on the spot after a failed device access to its context area, as PHALT halts it, and the host learns cause 80
(R364, R442; log 11). -/
def State.areaHalt (s : State) (part loc : Nat) : State :=
  let s := { s with parts := modify s.parts part fun p => { p with halted := true, broken := true } }
  let c := s.context part
  let s := if c.state == 1 then s.setContext part { c with state := 2 } else s
  s.post 5 80 0 0 0 loc

/-- A block halts for good: no trap of it can end the halt (R364, R365). -/
def State.haltForever (s : State) (bid : Nat) : State :=
  match s.block bid with
  | none => s
  | some b => (s.setBlock bid { b with halt := some { causes := [], forever := true } }).stopGangs bid

/-- The outcome of a failed device access to a context area by a gang (R364, R442): its block halts for good, and its partition. -/
def State.areaFailed (s : State) (gid : Nat) : State :=
  match s.gang gid with
  | none => s
  | some g => match s.block g.block with
    | none => s
    | some b => (s.haltForever g.block).areaHalt b.part (seatLoc b.core g.seat)

/-- The outcome of a failed access to a core record (R442): every block of the partition on the core halts for good, and the partition (log 11). -/
def State.coreFailed (s : State) (core part : Nat) : State :=
  let mine := (s.blocks.filter fun (_, b) => b.core == core && b.part == part && !b.done).map (·.1)
  (mine.foldl State.haltForever s).areaHalt part core

/-- Pushes an entry onto the stack of a split; a fifth entry spills the oldest (R33). -/
def State.push (s : State) (gid e : Nat) (x : StackEntry) : State :=
  match s.gang gid with
  | none => s
  | some g => match look g.splits e with
    | none => s
    | some sp =>
      if sp.stack.length < 4 then s.setGang gid { g with splits := set g.splits e { sp with stack := x :: sp.stack } }
      else
        match sp.stack.getLast?, (List.range 32).find? (fun k => g.spills.all (·.slot != k)) with
        | some old, some k =>
          if !s.seatOk g then s.areaFailed gid
          else
            let spill : Spill := { slot := k, entry := e, mode := sp.mode, depth := sp.depth, lanes := old.mask }
            let s := s.setGang gid { g with
              splits := set g.splits e { sp with stack := x :: sp.stack.dropLast }, spills := spill :: g.spills }
            s.devWrite (s.partOf g) (s.seatRecord g + 256 + 8 * k) (spillBytes spill old true)
        | _, _ => s

/-- The lanes held in the valid spilled entries of a split's stack (R33). -/
def spilledLanes (l : List Spill) (e : Nat) (m : Mode) (d : Nat) : Mask :=
  (l.filter fun x => x.entry == e && x.mode == m && x.depth == d).foldl (fun a x => a ||| x.lanes) 0

/-- The spilled entries after entry x has returned with the lanes of m: those lanes leave the set of x's stack, and the other lanes of the
set stay in it while an entry of the stack is left (R33; log 86). -/
def Gang.spillsLeft (g : Gang) (x : Spill) (m : Mask) : List Spill :=
  let mine := fun y : Spill => y.entry == x.entry && y.mode == x.mode && y.depth == x.depth
  let rest := (g.spills.filter (·.slot != x.slot)).map fun y => if mine y then { y with lanes := y.lanes &&& ~~~m } else y
  match rest.findIdx? mine with
  | some i => rest.modify i fun y => { y with lanes := y.lanes ||| (x.lanes &&& ~~~m) }
  | none => rest

/-- After a pop leaves fewer than four entries, the most recently spilled valid entry of the same entry, mode and depth returns to the
bottom, with the mask found in memory cut to the lanes kept on chip; an entry left empty is dropped and the next is tried (R33). Bit 0 of
its PC is taken as 0, since no program counter is odd (R74; log 86). -/
def State.unspill (s : State) (gid e : Nat) : Nat → State
  | 0 => s
  | n + 1 =>
    match s.gang gid with
    | none => s
    | some g => match look g.splits e with
      | none => s
      | some sp =>
        if 4 ≤ sp.stack.length then s
        else match g.spills.find? fun x => x.entry == e && x.mode == sp.mode && x.depth == sp.depth with
          | none => s
          | some x =>
            if !s.seatOk g then s.areaFailed gid
            else
              let a := s.seatRecord g + 256 + 8 * x.slot
              let v := leNat (s.bytesAt 0 a 8)
              let m := BitVec.ofNat 32 (v / 2 ^ 32) &&& spilledLanes g.spills e sp.mode sp.depth
              let ent : StackEntry := { pc := BitVec.ofNat 32 (v % 2 ^ 25) &&& ~~~1#32, mask := m }
              let rest := g.spillsLeft x m
              let s := s.devWrite (s.partOf g) a (leBytes 8 (if v / 2 ^ 25 % 2 == 1 then v - 2 ^ 25 else v))
              if m == 0 then (s.setGang gid { g with spills := rest }).unspill gid e n
              else s.setGang gid { g with spills := rest, splits := set g.splits e { sp with stack := sp.stack ++ [ent] } }

/-- Pops the top entry of a split's stack. -/
def State.pop (s : State) (gid e : Nat) : State × Option StackEntry :=
  match s.gang gid with
  | none => (s, none)
  | some g => match look g.splits e with
    | none => (s, none)
    | some sp => match sp.stack with
      | [] => (s, none)
      | x :: r => ((s.setGang gid { g with splits := set g.splits e { sp with stack := r } }).unspill gid e 33, some x)

/-- A stack passes from one split entry to another: SPLIT is rewritten in every valid spilled entry of it, on chip and in memory
(R33). -/
def State.moveSpills (s : State) (gid e e' : Nat) (m : Mode) (d : Nat) : State :=
  match s.gang gid with
  | none => s
  | some g =>
    let mine := g.spills.filter fun x => x.entry == e && x.mode == m && x.depth == d
    if mine.isEmpty || e == e' then s
    else if !s.seatOk g then s.areaFailed gid
    else
      let s := s.setGang gid { g with spills := g.spills.map fun x =>
        if x.entry == e && x.mode == m && x.depth == d then { x with entry := e' } else x }
      mine.foldl (fun s x =>
        let a := s.seatRecord g + 256 + 8 * x.slot
        let v := leNat (s.bytesAt 0 a 8)
        s.devWrite (s.partOf g) a (leBytes 8 (v - (v / 2 ^ 30 % 4) * 2 ^ 30 + e' * 2 ^ 30))) s

/-- The lowest free split entry (R31). -/
def Gang.freeEntry (g : Gang) : Option Nat := (List.range 4).find? fun e => (look g.splits e).isNone

/-- A split that starts at a program counter. -/
def Split.start (mask : Mask) (pc : Word) (m : Mode) (d : Nat) (stack : List StackEntry) : Split :=
  { mask := mask, pc := pc, mode := m, depth := d, dbl := false, stack := stack, run := .ready, trap := none, only := 0, code := [] }

/-- A pending split, or the top of a saved stack, as it goes on in a split entry, with the wait it was in (R355, R362). -/
def TrapRec.rest (r : TrapRec) (m : Mask) (pc : Word) (stack : List StackEntry) : Split :=
  { Split.start m pc r.mode r.depth stack with run := match r.wait with | some w => .parked w | none => .ready }

/-- A pending split takes an entry that freed, with the saved stack (R355). The trap at the lowest depth comes first. -/
def State.resumePending (s : State) (gid : Nat) : State :=
  match s.gang gid with
  | none => s
  | some g => match g.freeEntry, g.traps.find? fun (_, r) => r.pending.isSome with
    | some e, some (d, r) => match r.pending with
      | some (pc, m) =>
        let s := s.setGang gid { g with
          splits := set g.splits e (r.rest m pc (r.saved.getD []))
          traps := set g.traps d { r with saved := none, pending := none, wait := none } }
        s.moveSpills gid r.entry e r.mode r.depth
      | none => s
    | _, _ => s

/-- Frees a split's entry; a pending split may take it. -/
def State.freeSplit (s : State) (gid e : Nat) : State :=
  match s.gang gid with
  | none => s
  | some g => (s.setGang gid { g with splits := del g.splits e }).resumePending gid

/-- Whether two splits may fuse (R35). -/
def fusible (a b : Split) : Bool := a.pc == b.pc && a.mode == b.mode && a.depth == b.depth && a.dbl == b.dbl

/-- Fuses the splits of two entries: the lower entry, the union of masks, the higher split's stack pushed on top oldest first (R35).
It answers the entry kept. The counts of issued instructions stand by lane, so each lane of the fused split keeps its own (R174; log 28). -/
def State.fuse (s : State) (gid e e' : Nat) (pc : Word) : State × Nat :=
  let lo := min e e'; let hi := max e e'
  match s.gang gid with
  | none => (s, e)
  | some g => match look g.splits lo, look g.splits hi with
    | some a, some b =>
      let s := s.setGang gid { g with
        splits := set (del g.splits hi) lo { a with mask := a.mask ||| b.mask, pc := pc, run := .ready } }
      let s := s.moveSpills gid hi lo a.mode a.depth
      let s := b.stack.reverse.foldl (fun s x => s.push gid lo x) s
      (s.resumePending gid, lo)
    | _, _ => (s, e)

/-- Applies a change to one split. -/
def State.updSplit (s : State) (gid e : Nat) (f : Split → Split) : State :=
  match s.gang gid with
  | none => s
  | some g => s.setGang gid { g with splits := modify g.splits e f }

/-! ### Traps (R351 to R365) -/

/-- The address of frame slot d of a gang's seat record (R358). -/
def State.frameAt (s : State) (g : Gang) (slot : Nat) : Nat := s.seatRecord g + 64 * slot

/-- Replaces bytes of a list from a position. -/
def splice (bs : List Byte) (i : Nat) (new : List Byte) : List Byte := bs.take i ++ new ++ bs.drop (i + new.length)

/-- The ECC words of an L1 line that meet a condition (R211). -/
def eccMask (p : Nat → Bool) : BitVec 16 := (List.range 16).foldl (fun m i => if p i then m ||| 1#16 <<< i else m) 0

/-- A write by a core updates the line of its L1 that it overlaps. -/
def State.updateL1 (s : State) (core : Nat) (colour : BitVec 8) (a : Nat) (bs : List Byte) : State :=
  let c := s.core core
  let hit := fun x : L1Line => decide (x.line * 128 < a + bs.length) && decide (a < x.line * 128 + 128) && (!isHost a || x.colour == colour)
  if c.l1.any hit then
    let upd := fun x : L1Line =>
      { x with
        data := splice x.data (a - x.line * 128) ((bs.drop (x.line * 128 - a)).take (x.line * 128 + 128 - max a (x.line * 128)))
        bad := x.bad &&& ~~~eccMask fun i => decide (a ≤ x.line * 128 + 8 * i) && decide (x.line * 128 + 8 * i + 8 ≤ a + bs.length) }
    s.setCore core { c with l1 := c.l1.map fun x => if hit x then upd x else x }
  else s

/-- What bypasses the L1 leaves no line behind that its own core could still hit (R201, R235; log 72). -/
def State.dropL1 (s : State) (core : Nat) (colour : BitVec 8) (a n : Nat) : State :=
  let c := s.core core
  let hit := fun x : L1Line => decide (x.line * 128 < a + n) && decide (a < x.line * 128 + 128) && (!isHost a || x.colour == colour)
  if c.l1.any hit then s.setCore core { c with l1 := c.l1.filter fun x => !hit x } else s

/-- Writes a frame as one store of the gang's core (R357, R201). -/
def State.writeFrame (s : State) (g : Gang) (slot : Nat) (bs : List Byte) : State :=
  let core := ((s.block g.block).map (·.core)).getD 0
  (s.devWrite (s.partOf g) (s.frameAt g slot) bs).updateL1 core 0 (s.frameAt g slot) bs

/-- The 64 bytes of a frame (R357). -/
def frameBytes (t : PendingTrap) (cause : Nat) (detail : Nat) (entry modes skid : Nat) : List Byte :=
  leBytes 8 t.addr ++ leBytes 4 t.lanes.toNat ++ leBytes 4 t.word.toNat ++ leBytes 4 t.pc.toNat ++ leBytes 4 t.resume.toNat ++
    leBytes 1 cause ++ leBytes 1 modes ++ leBytes 1 entry ++ leBytes 1 skid ++ leBytes 4 t.pfx.toNat ++
    leBytes 4 (min t.late (2 ^ 32 - 1)) ++ leBytes 20 0 ++ leBytes 8 detail

/-- MODES of a frame (R357). -/
def modesByte (pfx : Word) (dbl : Bool) (entered from_ : Mode) (depth : Nat) : Nat :=
  (if pfx != 0 then 128 else 0) + (if dbl then 64 else 0) + modeBits entered * 16 + modeBits from_ * 4 + depth

/-- The capability to a frame slot that c15 reads (R356). -/
def State.frameCap (s : State) (g : Gang) (slot : Nat) : Cap :=
  let a := s.frameAt g slot
  let colour := ((s.part (s.partOf g)).map (·.colour)).getD 0
  Cap.make (a / 16) 64 permR colour (extGen (s.extent (extentOf a))) 0 true

/-- The code capability a split fetches through (R351): c1 in U mode, c14 of the bank in S and H mode. -/
def Gang.codeCap (g : Gang) (m : Mode) : Cap :=
  match m with
  | .u => lookD Cap.null g.c 1
  | _ => lookD Cap.null g.c (cKey m 14)

/-- A word of the header that a code capability addresses (R25, R26). -/
def State.headerWord (s : State) (pasid : Nat) (c : Cap) (i : Nat) : Word := BitVec.ofNat 32 (leNat (s.bytesAt pasid (c.flat + 4 * i) 4))

/-- The instruction word and prefix word that stand in memory at a split's program counter (R365); a 16-bit instruction in [15:0]. -/
def State.codeWords (s : State) (g : Gang) (sp : Split) : Word × Word :=
  let a := (g.codeCap sp.mode).flat + sp.pc.toNat
  let w := fun a => BitVec.ofNat 32 (leNat (s.bytesAt (s.pasid (s.partOf g)) a 4))
  let x := w a
  if !x.getLsbD 0 then (x &&& 0xFFFF, 0)
  else if x.extractLsb' 1 7 == 0x3F then (w (a + 4), x) else (x, 0)

/-- Stores a frame that a block halt makes. An evicted gang's frame goes into the seat record that its eviction record carries (log 35). One that
cannot be stored halts the block and the partition (R364, R442). -/
def State.storeFrame (s : State) (gid slot : Nat) (bs : List Byte) : State :=
  match s.gang gid with
  | none => s
  | some g => match g.record with
    | some (n, seat) => s.setGang gid { g with record := some (n, splice seat (64 * slot) bs) }
    | none => if s.seatOk g then s.writeFrame g slot bs else s.areaFailed gid

/-- The frame of a gang that a block halt stops (R51, R365): its lowest-numbered split and its instruction there, with the skid. -/
def State.haltFrame (s : State) (gid slot cause : Nat) : State :=
  match s.gang gid with
  | none => s
  | some g => match g.splits with
    | [] => s
    | (e, sp) :: _ =>
      let (word, pfx) := s.codeWords g sp
      let t : PendingTrap :=
        { lanes := ~~~g.exited, cause := cause, addr := 0, detail := 0, pc := sp.pc, word := word, pfx := pfx,
          resume := sp.pc, rest := sp.pc, stay := sp.pc, late := 0 }
      s.storeFrame gid slot (frameBytes t cause 0 e (modesByte pfx false sp.mode sp.mode sp.depth) g.skid)

/-- Starts or joins a block halt (R51, R52). -/
def State.haltBlock (s : State) (b gid depth : Nat) : State :=
  match s.block b with
  | none => s
  | some blk =>
    let h := blk.halt.getD { causes := [], forever := false }
    s.setBlock b { blk with halt := some { h with causes := h.causes ++ [(gid, depth)] } }

/-- A containment fault of trap t of a split in entry e (R363): the block halts for good, every gang of it writes a frame with cause 95 to slot 0,
or to slot 3 when slot 0 holds a live double fault, and the host learns of it. The frame of the gang at fault is precise (R51). No handler runs:
the modes of its frame are those of R365 (log 35). -/
def State.containment (s : State) (gid e : Nat) (sp : Split) (t : PendingTrap) : State :=
  match s.gang gid with
  | none => s
  | some g => match s.block g.block with
    | none => s
    | some b =>
      let s := s.setBlock g.block { b with halt := some { causes := [], forever := true } }
      let s := (s.gangsOf g.block).foldl (fun s (k, x) =>
        let slot := if (look x.traps 4).isSome then 3 else 0
        let s := s.setGang k { x with skid := 0 }
        if k == gid then s.storeFrame k slot (frameBytes t 95 0 e (modesByte t.pfx false sp.mode sp.mode sp.depth) 0)
        else s.haltFrame k slot 95) s
      (s.stopGangs g.block).post 4 95 0 0 0 (seatLoc b.core g.seat)

/-- Where a split goes on when it stops being held: past the JOIN that holds it (R36). -/
def Split.goesOn (sp : Split) : Word := match sp.run with | .held _ => sp.pc + 4 | _ => sp.pc

/-- The wait that a split goes on with where its instruction has issued. -/
def Split.waits (sp : Split) : Option Wake :=
  match sp.run with
  | .parked (.flue a) => some (.flue a)
  | .parked (.waitmem a) => some (.waitmem a)
  | .parked .host => some .host
  | .parked (.queue q a) => some (.queue q a)
  | .parked (.fill a) => some (.fill a)
  | .parked (.barrier lvl idx key sync) => some (.barrier lvl idx key sync)
  | _ => none

/-- The v keys and the s keys among destinations. -/
def vKeys (ds : List Dest) : List Nat := ds.filterMap fun d => match d with | .v k => some k | .s _ => none
def sKeys (ds : List Dest) : List Nat := ds.filterMap fun d => match d with | .s k => some k | .v _ => none

/-- Trap entry (R355): lanes t.lanes of the split leave it for the handler. A trap whose depth is in progress parks the split until the
depth is free (R354); one at depth 3 is a double fault, or a containment fault when a double fault is in progress (R363); a frame
that cannot be stored stops the block and the partition (R364). -/
def State.takeTrap (s : State) (gid e : Nat) (t : PendingTrap) : State :=
  match s.gang gid with
  | none => s
  | some g => match look g.splits e, s.block g.block with
    | some sp, some b =>
      if sp.depth == 3 && (sp.dbl || (look g.traps 4).isSome) then s.containment gid e sp t
      else
        let dbl := sp.depth == 3
        let key := if dbl then 4 else sp.depth + 1
        let depth := if dbl then 3 else sp.depth + 1
        if (look g.traps key).isSome then
          let back := if sp.run == .parked .depth then t.back else sp.waits
          let t := match sp.run with
            | .held _ => { t with rest := sp.goesOn, stay := sp.goesOn }
            | _ => t
          s.updSplit gid e fun sp => { sp with pc := t.stay, run := .parked .depth, trap := some { t with back := back } }
        else
          let mode : Mode := if dbl || sp.mode == .h || t.cause == 65 then .h else .s
          let slot := if dbl then 0 else depth
          if !s.seatOk g then s.areaFailed gid
          else
            let cause := if dbl then 95 else t.cause
            let detail := if dbl then t.cause else t.detail
            let s := s.writeFrame g slot
              (frameBytes t cause detail e (modesByte t.pfx dbl mode sp.mode depth) 0)
            let whole := t.lanes == sp.mask
            let vec := if mode == .h then s.htvec else ((s.part b.part).map (·.tvec)).getD 0
            let handler := { Split.start t.lanes vec mode depth [] with dbl := dbl }
            let rest := { sp with mask := sp.mask &&& ~~~t.lanes, pc := t.rest, trap := none, only := sp.only &&& ~~~t.lanes }
            let rest := if sp.run == .parked .depth then
                { rest with run := match t.back with | some w => .parked w | none => .ready } else rest
            let rec_ : TrapRec :=
              { mode := sp.mode, depth := sp.depth, entry := e, lanes := t.lanes, saved := none, pending := none,
                frame := s.frameCap g slot }
            let (splits, rec_) :=
              if whole then (set g.splits e handler, { rec_ with saved := some sp.stack })
              else match g.freeEntry with
                | some f => (set (set g.splits e rest) f handler, rec_)
                | none => (set g.splits e handler, { rec_ with
                    saved := some sp.stack, pending := some (rest.goesOn, rest.mask), wait := rest.waits })
            let g := t.fills.foldl (fun g (k, m) => (lanesOf m).foldl (fun g l => g.refillV k l) g) g
            let g := t.sfills.foldl Gang.refillS g
            let s := s.setGang gid { g with splits := splits, traps := set g.traps key rec_ }
            let s := match t.tile with
              | some k => { s with blocks := modify s.blocks g.block fun b => { b with tileEmpty := put false b.tileEmpty k false } }
              | none => s
            let s := s.count b.core b.part 0x11 1
            if b.hdr.blockHalt || t.cause == 20 then s.haltBlock g.block gid key else s
    | _, _ => s

/-- A block halt whose causing traps have all ended is released: every held gang goes on (R365). -/
def State.endHalt (s : State) (b gid key : Nat) : State :=
  match s.block b with
  | none => s
  | some blk => match blk.halt with
    | none => s
    | some h =>
      let left := h.causes.filter (· != (gid, key))
      if left.isEmpty && !h.forever && !h.causes.isEmpty then
        { s.setBlock b { blk with halt := none } with
          gangs := s.gangs.map fun (k, g) => if g.block == b then (k, { g with stopped := false, skid := 0 }) else (k, g) }
      else s.setBlock b { blk with halt := some { h with causes := left } }

/-- Lanes leave the trap at a key, by TRET or by exit. When the last has left, the trap ends: its record goes, its halt is released
(R354, R365). -/
def State.leaveTrap (s : State) (gid key : Nat) (m : Mask) : State :=
  match s.gang gid with
  | none => s
  | some g => match look g.traps key with
    | none => s
    | some r =>
      if r.lanes &&& ~~~m == 0 then (s.setGang gid { g with traps := del g.traps key }).endHalt g.block gid key
      else s.setGang gid { g with traps := set g.traps key { r with lanes := r.lanes &&& ~~~m } }

/-- Whether an access concerns a lane of a mask. -/
def Req.touches (r : Req) (m : Mask) : Bool := if r.lane < 32 then m.getLsbD r.lane else r.mask &&& m != 0

/-- The scope of an access: SCOPE 0 of an atomic is device scope (R216). -/
def Req.level (r : Req) : Nat :=
  match r.acc with
  | .atomic .. => if r.scope == 0 then 4 else r.scope
  | _ => r.scope

/-- An acquire at cluster scope or above invalidates the core's L1 (R201). -/
def State.clearL1 (s : State) (core : Nat) : State := s.setCore core { s.core core with l1 := [] }

/-- A WAITMEM access of some lanes. -/
def Req.waitOf (r : Req) (gid : Nat) (m : Mask) : Bool :=
  r.gang == gid && r.touches m && (match r.acc with | .wait _ _ => true | _ => false)

/-- A FLUE.WAIT operation of some lanes. -/
def FlueOp.waitOf (o : FlueOp) (gid : Nat) (m : Mask) : Bool :=
  o.gang == gid && m.getLsbD o.lane && (match o.kind with | .wait _ _ => true | _ => false)

/-- Whether a WAITMEM lane has latched its condition (R224). -/
def Req.latched (r : Req) : Bool := match r.stage with | .replied _ _ => true | _ => false

/-- The lanes of a mask whose WAITMEM or FLUE.WAIT has not ended. -/
def State.waitingLanes (s : State) (gid : Nat) (m : Mask) : Mask :=
  maskOf fun l => (s.reqs.any fun (_, r) => r.waitOf gid (m &&& bit l) && !r.latched) ||
    s.flueOps.any fun (_, o) => o.waitOf gid (m &&& bit l)

/-- The waits of some lanes leave: those that have latched are complete, as acquires where their reads were (R224, R201). -/
def State.endWaits (s : State) (gid : Nat) (m : Mask) : State :=
  let mine := s.reqs.filter fun (_, r) => r.waitOf gid m
  let s := { s with
    reqs := s.reqs.filter fun (_, r) => !r.waitOf gid m
    flueOps := s.flueOps.filter fun (_, o) => !o.waitOf gid m }
  mine.foldl (fun s (_, r) => if r.acq && r.latched && decide (3 ≤ r.level) then s.clearL1 r.core else s) s

/-- The program counters and lanes of a pending split when TRET takes it up: a wait is over for the lanes that have latched, and the
others execute it again (R361, R288, R224; log 87). An instruction that must not issue twice is left behind: a QRD, whose registers its record
still fills, a barrier wait that is over, and a BAR.SYNC, which has arrived (log 58). -/
def State.pendingParts (s : State) (gid : Nat) (r : TrapRec) : List (Word × Mask) :=
  match r.pending with
  | none => []
  | some (pc, m) =>
    let after := match r.wait with
      | some (.flue a) => some a
      | some (.waitmem a) => some a
      | some (.queue _ a) => some a
      | some (.fill a) => some a
      | some (.barrier _ _ _ true) => some (pc + 4)
      | _ => none
    match after with
    | none => [(pc, m)]
    | some a => [(pc, m &&& s.waitingLanes gid m), (a, m &&& ~~~s.waitingLanes gid m)].filter fun x => x.2 != 0

/-- The return of a split from its trap (R361), RESUME having been read and found even. -/
def State.returnTrap (s : State) (gid e : Nat) (resume : Word) : State :=
  match s.gang gid with
  | none => s
  | some g => match look g.splits e with
    | none => s
    | some sp => match look g.traps sp.trapKey with
      | none => s
      | some r =>
        let back := { sp with pc := resume, mode := r.mode, depth := r.depth, dbl := false, stack := r.saved.getD [], code := [] }
        let parts := s.pendingParts gid r
        let joined := parts.foldl (fun m x => if x.1 == resume then m ||| x.2 else m) 0
        let s := s.setGang gid { g with
          splits := set g.splits e { back with mask := back.mask ||| joined }
          traps := set g.traps sp.trapKey { r with saved := none, pending := none, wait := none } }
        let s := if r.wait.isSome then s.endWaits gid ((r.pending.map (·.2)).getD 0) else s
        let s := if r.saved.isSome then s.moveSpills gid r.entry e r.mode r.depth else s
        let s := parts.foldl (fun s x => if x.1 == resume then s else s.push gid e { pc := x.1, mask := x.2 }) s
        let s := s.leaveTrap gid sp.trapKey sp.mask
        match s.gang gid with
        | none => s
        | some g => match look g.traps r.depth with
          | some q => s.setGang gid { g with traps := set g.traps r.depth { q with frame := s.frameCap g r.depth } }
          | none => s

end Sys2Proof.Machine
end

