-- ==== Sys2Proof/WellFormed.lean ====
section
/-! DEFINITION. The static register rules of R76 and of the opcode map (R86 to R91): pairs, quads, groups of registers,
barrier names, queue names (R298), and the operand values the map leaves unassigned. An instruction that breaks one raises illegal
instruction, cause 32, after the privilege check (R92 check 4); those that no word can encode are refused here too. -/

namespace Sys2Proof

/-- A register field names a multiple of n (R76). -/
def multiple (n : Nat) (r : Reg) : Bool := r.toNat % n == 0
/-- A pair operand names an even register (R76). -/
def even (r : Reg) : Bool := multiple 2 r
/-- A quad operand names a multiple of 4 (R76). -/
def quad (r : Reg) : Bool := multiple 4 r

/-- The static well-formedness of an instruction. -/
def wellFormed (i : Instr) : Bool :=
  match i with
  | .iadd _ _ _ _ _ => true
  | .isub _ _ _ _ _ => true
  | .imul _ _ _ _ _ => true
  | .imulhI32 _ _ _ _ _ => true
  | .imulhN32 _ _ _ _ _ => true
  | .iminI32 _ _ _ _ _ => true
  | .iminN32 _ _ _ _ _ => true
  | .imaxI32 _ _ _ _ _ => true
  | .imaxN32 _ _ _ _ _ => true
  | .iabsI32 _ _ _ => true
  | .iaddsI32 _ _ _ _ _ => true
  | .isubsI32 _ _ _ _ _ => true
  | .iaddsN32 _ _ _ _ _ => true
  | .isubsN32 _ _ _ _ _ => true
  | .and_ _ _ _ _ _ => true
  | .or_ _ _ _ _ _ => true
  | .xor_ _ _ _ _ _ => true
  | .andn _ _ _ _ _ => true
  | .shl _ _ _ _ _ => true
  | .shr _ _ _ _ _ => true
  | .sar _ _ _ _ _ => true
  | .rol _ _ _ _ _ => true
  | .popc _ _ _ => true
  | .clz _ _ _ => true
  | .brev _ _ _ => true
  | .icmpEq _ _ _ _ _ => true
  | .icmpNe _ _ _ _ _ => true
  | .icmpLtI32 _ _ _ _ _ => true
  | .icmpLeI32 _ _ _ _ _ => true
  | .icmpLtN32 _ _ _ _ _ => true
  | .icmpLeN32 _ _ _ _ _ => true
  | .fcmpEq _ _ _ _ _ => true
  | .fcmpNe _ _ _ _ _ => true
  | .fcmpLt _ _ _ _ _ => true
  | .fcmpLe _ _ _ _ _ => true
  | .fcmpUn _ _ _ _ _ => true
  | .sel _ _ _ _ _ _ => true
  | .selN _ _ _ _ _ _ => true
  | .imad _ _ _ _ => true
  | .bfi _ _ _ _ => true
  | .bfeN32 _ _ _ => true
  | .bfeI32 _ _ _ => true
  | .iaddI64 _ _ b a d => even a && even b && even d
  | .isubI64 _ _ b a d => even a && even b && even d
  | .shlI64 _ _ _ a d => even a && even d
  | .shrN64 _ _ _ a d => even a && even d
  | .sarI64 _ _ _ a d => even a && even d
  | .imulwI32 _ _ _ _ d => even d
  | .imulwN32 _ _ _ _ d => even d
  | .iminI64 _ _ b a d => even a && even b && even d
  | .imaxI64 _ _ b a d => even a && even b && even d
  | .iaddi _ _ _ _ => true
  | .andi _ _ _ _ => true
  | .ori _ _ _ _ => true
  | .xori _ _ _ _ => true
  | .shli _ _ _ _ => true
  | .shri _ _ _ _ => true
  | .sari _ _ _ _ => true
  | .movi _ _ => true
  | .sloi _ _ _ _ => true
  | .imuli _ _ _ _ => true
  | .mov _ _ _ => true
  | .sextI8 _ _ _ => true
  | .sextI16 _ _ _ => true
  | .zextN8 _ _ _ => true
  | .zextN16 _ _ _ => true
  | .fadd _ _ _ _ _ => true
  | .fsub _ _ _ _ _ => true
  | .fmul _ _ _ _ _ => true
  | .fmin _ _ _ _ _ => true
  | .fmax _ _ _ _ _ => true
  | .fdiv _ _ _ _ _ => true
  | .fabs _ _ _ => true
  | .fneg _ _ _ => true
  | .fsqrt _ _ _ => true
  | .frcp _ _ _ => true
  | .frsq _ _ _ => true
  | .fexp2 _ _ _ => true
  | .flog2 _ _ _ => true
  | .fsin _ _ _ => true
  | .fcos _ _ _ => true
  | .fmaF32 _ _ _ _ => true
  | .haddF16 _ _ _ _ _ => true
  | .hsubF16 _ _ _ _ _ => true
  | .hmulF16 _ _ _ _ _ => true
  | .hminF16 _ _ _ _ _ => true
  | .hmaxF16 _ _ _ _ _ => true
  | .haddBf16 _ _ _ _ _ => true
  | .hsubBf16 _ _ _ _ _ => true
  | .hmulBf16 _ _ _ _ _ => true
  | .hminBf16 _ _ _ _ _ => true
  | .hmaxBf16 _ _ _ _ _ => true
  | .hfmaF16 _ _ _ _ => true
  | .hfmaBf16 _ _ _ _ => true
  | .cvtF32I32 _ _ _ => true
  | .cvtF32N32 _ _ _ => true
  | .cvtI32F32 _ _ _ => true
  | .cvtN32F32 _ _ _ => true
  | .cvtF16F32 _ _ _ => true
  | .cvtBf16F32 _ _ _ => true
  | .cvtF32F16 _ _ _ => true
  | .cvtF32Bf16 _ _ _ => true
  | .frnd _ _ _ => true
  | .quantSb7 _ _ _ => true
  | .quantSb4 _ _ _ => true
  | .quantSb2 _ _ _ => true
  | .deqSb7 _ _ _ _ _ => true
  | .deqSb4 _ _ _ _ _ => true
  | .deqSb2 _ _ _ _ _ => true
  | .kand _ _ _ => true
  | .kor _ _ _ => true
  | .kxor _ _ _ => true
  | .kandn _ _ _ => true
  | .knot _ _ => true
  | .lsel _ _ _ _ _ => true
  | .lstep _ _ _ _ _ => true
  | .lstepW _ _ _ _ _ => true
  | .lmirror _ _ _ _ _ => true
  | .kmask _ _ => true
  | .kcount _ _ => true
  | .krank _ _ => true
  | .lkin _ _ _ => true
  | .lfoldAdd _ _ _ => true
  | .lfoldMinI32 _ _ _ => true
  | .lfoldMaxI32 _ _ _ => true
  | .lfoldAnd _ _ _ => true
  | .lfoldOr _ _ _ => true
  | .lfoldXor _ _ _ => true
  | .lfoldMinN32 _ _ _ => true
  | .lfoldMaxN32 _ _ _ => true
  | .exit_ => true
  | .yield => true
  | .jmpr _ => true
  | .join _ => true
  | .brt _ _ => true
  | .brf _ k => k != 0
  | .call _ => true
  | .siadd _ _ _ _ _ => true
  | .sisub _ _ _ _ _ => true
  | .simul _ _ _ _ _ => true
  | .simulhI32 _ _ _ _ _ => true
  | .simulhN32 _ _ _ _ _ => true
  | .siminI32 _ _ _ _ _ => true
  | .siminN32 _ _ _ _ _ => true
  | .simaxI32 _ _ _ _ _ => true
  | .simaxN32 _ _ _ _ _ => true
  | .siabsI32 _ _ _ => true
  | .siaddsI32 _ _ _ _ _ => true
  | .sisubsI32 _ _ _ _ _ => true
  | .siaddsN32 _ _ _ _ _ => true
  | .sisubsN32 _ _ _ _ _ => true
  | .sand _ _ _ _ _ => true
  | .sor _ _ _ _ _ => true
  | .sxor _ _ _ _ _ => true
  | .sandn _ _ _ _ _ => true
  | .sshl _ _ _ _ _ => true
  | .sshr _ _ _ _ _ => true
  | .ssar _ _ _ _ _ => true
  | .srol _ _ _ _ _ => true
  | .spopc _ _ _ => true
  | .sclz _ _ _ => true
  | .sbrev _ _ _ => true
  | .scmpEq _ _ _ _ _ => true
  | .scmpNe _ _ _ _ _ => true
  | .scmpLtI32 _ _ _ _ _ => true
  | .scmpLeI32 _ _ _ _ _ => true
  | .scmpLtN32 _ _ _ _ _ => true
  | .scmpLeN32 _ _ _ _ _ => true
  | .siaddi _ _ _ _ => true
  | .smovi _ _ => true
  | .ssloi _ _ _ _ => true
  | .simad _ _ _ _ => true
  | .ldu32 _ _ _ _ _ => true
  | .movVs _ _ => true
  | .movSv _ _ => true
  | .rdlane _ _ _ => true
  | .iaddShort i s d => i || s != 0 || d != 0
  | .isubShort _ _ _ => true
  | .imulShort _ _ _ => true
  | .andShort _ _ _ => true
  | .orShort _ _ _ => true
  | .xorShort _ _ _ => true
  | .shlShort _ _ _ => true
  | .shrShort _ _ _ => true
  | .sarShort _ _ _ => true
  | .movShort _ _ => true
  | .moviShort _ _ => true
  | .iminShort _ _ _ => true
  | .imaxShort _ _ _ => true
  | .faddShort _ _ => true
  | .fsubShort _ _ => true
  | .fmulShort _ _ => true
  | .fmaxShort _ _ => true
  | .cmov _ _ => true
  | .csetb x _ _ => even x
  | .candp _ _ _ => true
  | .cseal _ _ _ => true
  | .cunseal _ _ => true
  | .cdeleg _ _ _ => true
  | .croot x _ => even x
  | .cgetBase _ b => even b
  | .cgetLen _ b => even b
  | .cgetPerm _ _ => true
  | .cgetType _ _ => true
  | .cgetTag _ _ => true
  | .cgetColour _ _ => true
  | .cgetGen _ _ => true
  | .cclrtag _ _ => true
  | .ctoq _ b => quad b
  | .cfromq a _ => quad a
  | .ccover _ _ _ => true
  | .ld32 _ _ _ _ _ => true
  | .ld64 _ _ _ _ d => even d
  | .ld128 _ _ _ _ d => quad d
  | .st32 _ _ _ _ _ => true
  | .st64 _ _ _ _ d => even d
  | .st128 _ _ _ _ d => quad d
  | .ld32Quad _ _ _ _ _ => true
  | .st32Quad _ _ _ _ _ => true
  | .cld _ _ _ _ d => quad d
  | .cst _ _ _ _ d => quad d
  | .lds32 _ _ _ _ _ => true
  | .sts32 _ _ _ _ _ => true
  | .ldN8 _ _ _ => true
  | .ldI8 _ _ _ => true
  | .ldN16 _ _ _ => true
  | .ldI16 _ _ _ => true
  | .st8 _ _ _ => true
  | .st16 _ _ _ => true
  | .ldN8Quad _ _ _ => true
  | .ldI8Quad _ _ _ => true
  | .ldN16Quad _ _ _ => true
  | .ldI16Quad _ _ _ => true
  | .st8Quad _ _ _ => true
  | .st16Quad _ _ _ => true
  | .ld64Quad _ _ b => even b
  | .st64Quad _ _ b => even b
  | .ld128Quad _ _ b => quad b
  | .st128Quad _ _ b => quad b
  | .atomAdd _ _ _ => true
  | .atomMinI32 _ _ _ => true
  | .atomMaxI32 _ _ _ => true
  | .atomMinN32 _ _ _ => true
  | .atomMaxN32 _ _ _ => true
  | .atomAnd _ _ _ => true
  | .atomOr _ _ _ => true
  | .atomXor _ _ _ => true
  | .atomSwap _ _ _ => true
  | .atomCas _ _ b => even b
  | .atomAddF32 _ _ _ => true
  | .redAdd _ _ _ => true
  | .redMinI32 _ _ _ => true
  | .redMaxI32 _ _ _ => true
  | .redMinN32 _ _ _ => true
  | .redMaxN32 _ _ _ => true
  | .redAnd _ _ _ => true
  | .redOr _ _ _ => true
  | .redXor _ _ _ => true
  | .redAddF32 _ _ _ => true
  | .atomsAdd _ _ _ => true
  | .atomsMinI32 _ _ _ => true
  | .atomsMaxI32 _ _ _ => true
  | .atomsMinN32 _ _ _ => true
  | .atomsMaxN32 _ _ _ => true
  | .atomsAnd _ _ _ => true
  | .atomsOr _ _ _ => true
  | .atomsXor _ _ _ => true
  | .atomsSwap _ _ _ => true
  | .atomsCas _ _ b => even b
  | .atomsAddF32 _ _ _ => true
  | .prefetch _ _ => true
  | .waitmemNe _ _ _ => true
  | .waitmemEq _ _ _ => true
  | .spempty _ => true
  | .spfill _ => true
  | .shape _ _ b => multiple 8 b
  | .fence scope _ => scope != 0 && scope.toNat < 6
  | .fenceShape => true
  | .barArv lvl idx => (lvl != 0 || idx == 0) && (lvl != 3 || idx.toNat < 8)
  | .barWait lvl idx _ => (lvl != 0 || idx == 0) && (lvl != 3 || idx.toNat < 8)
  | .barSync lvl idx _ => (lvl != 0 || idx == 0) && (lvl != 3 || idx.toNat < 8)
  | .barExp lvl idx b => even b && ((lvl != 0 || idx == 0) && (lvl != 3 || idx.toNat < 8) && lvl != 0)
  | .tcfg _ _ => true
  | .tld _ _ b => even b
  | .tst _ _ b => even b
  | .mma _ _ _ => true
  | .mmaq _ _ _ _ => true
  | .mmaS _ a _ _ => even a
  | .accAlloc _ => true
  | .accFree _ => true
  | .accZero _ => true
  | .accRd _ _ _ => true
  | .accWr _ _ _ => true
  | .accDrain _ _ b => quad b
  | .accDrainAdd _ _ b => quad b
  | .accQuant _ _ => true
  | .flueBoard _ _ _ a _ => even a
  | .flueAlight _ _ _ a _ => even a
  | .fluePeek _ _ _ _ b => quad b
  | .flueWaitEq _ _ _ _ _ => true
  | .flueWaitNe _ _ _ _ _ => true
  | .flueRev _ _ => true
  | .flueCap _ _ ordering op _ b => multiple (if op == 7 then 8 else 4) b && ordering != 3
  | .flueCapS2 _ _ ordering op _ b => multiple (if op == 7 then 16 else 8) b && ordering != 3
  | .flueCapS4 _ _ ordering op _ b => multiple (if op == 7 then 32 else 16) b && ordering != 3
  | .qw _ q a => q != 3 && even a
  | .qgo q => q != 3
  | .qgoC q _ => q != 3
  | .qrd q _ b => q != 3 && even b
  | .qstat _ _ => true
  | .launch _ _ => true
  | .graphTrig _ _ _ => true
  | .amsend _ b => b == 0 || b == 16 || b == 32
  | .hcmd _ _ _ => true
  | .sweep => true
  | .phalt _ => true
  | .presume _ => true
  | .resync _ => true
  | .esign _ _ => true
  | .psnap b => b == 0 || b == 16 || b == 32
  | .mfcr _ _ _ => true
  | .mtcr _ _ => true
  | .tret => true
  | .ifence => true
  | .bkpt => true
  | .syscall _ => true
  | .hvcall _ => true
  | .joinHoldEnd _ _ => true
  | .yieldRelease _ _ => true
  | .progressBoundExpiry _ _ => true
  | .splitWake _ _ => true
  | .dispatch _ => true
  | .blockPlacement _ => true
  | .blockCompletion _ => true
  | .graphRunStart _ _ => true
  | .eviction _ => true
  | .reinstatement _ => true
  | .sliceEnd _ => true
  | .trapEntry _ _ => true
  | .blockHalt _ => true
  | .loadReturn _ => true
  | .accessRejection _ => true
  | .homeSliceAccess _ _ _ => true
  | .extentChangeCompletion _ => true
  | .matrixStart _ => true
  | .matrixCompletion _ => true
  | .tileFill _ => true
  | .drainDelivery _ => true
  | .copy1d _ => true
  | .copy2d _ => true
  | .copytile _ => true
  | .fill _ => true
  | .seal _ => true
  | .open_ _ => true
  | .gather _ => true
  | .scatter _ => true
  | .send _ => true
  | .recv _ => true
  | .bcast _ => true
  | .engineSectorDelivery _ => true
  | .engineCommandCompletion _ => true
  | .engineCommandFailure _ => true
  | .fluePass _ => true
  | .flueAlightCompletion _ => true
  | .messageArrival _ _ => true
  | .handlerSpawn _ => true
  | .signedReadingWrite _ _ => true
  | .reconfigurationListApply => true
  | .sweepPass => true
  | .sweepPassCompletion => true
  | .hostSnoop _ _ _ => true
  | .atsCompletion _ _ _ _ _ => true
  | .atsInvalidation _ _ _ => true
  | .pageRequestResponse _ _ _ => true
  | .hostCxlMemAccess _ _ _ _ => true
  | .hostRegisterWrite _ _ => true
  | .evtailWrite _ => true
  | .mailboxLaunch => true
  | .mailboxGraphTrig => true
  | .reconfigure => true
  | .energyRead => true
  | .attest => true
  | .kemKey => true
  | .keyLoad => true
  | .channelResync => true
  | .mode_ => true
  | .migrateWrap => true
  | .migrateUnwrap => true
  | .pair => true
  | .linkUp _ _ => true
  | .linkLoss _ => true
  | .deviceReset _ => true
  | .perst => true
  | .powerLoss _ => true
  | .powerWindowEnd _ _ => true
  | .energyReconciliation _ => true
  | .energyPersist => true
  | .hbmBackgroundRead _ _ => true
  | .damperWindowEnd _ => true
  | .raisedWriter _ _ => true
  | .hostRegisterRead _ => true
  | .hostLinkLoss _ => true
  | .peerPair _ _ _ _ => true

end Sys2Proof
end

