-- ==== Sys2Proof/Machine/Operands.lean ====
section
/-! DEFINITION. Operand forms: the view of the issuing split, source modifiers and the cross-lane source rule, register ranges, and
which sources and destinations an instruction waits for. -/

namespace Sys2Proof.Machine

/-- The prefix with every field 0: what an instruction without a prefix carries (R77). -/
def Prefix.zero : Prefix :=
  { predicate := 0, negate := false, kind := 0, modA := 0, amtA := 0, modB := 0, amtB := 0, scope := 0 }

/-- The issuing split and all that stands around it. active is the split's mask (R7); live the lanes whose predicate holds (R79) and
whose part of the instruction is not complete (R229). -/
structure Ctx where
  s      : State
  gid    : Nat
  e      : Nat
  g      : Gang
  sp     : Split
  blk    : Block
  part   : Part
  pid    : Nat
  core   : Nat
  pc     : Word
  next   : Word
  word   : Word
  pfxWord : Word
  pfx    : Prefix
  active : Mask
  live   : Mask
  /-- Whether the split's code is K2 code: the kernel's header in U mode, the handler's own in S and H mode (R93, R366). -/
  k2     : Bool

/-- The view of the split under cur, if it stands and may issue. -/
def State.ctx (s : State) : Option Ctx :=
  match s.gang s.cur.gang with
  | none => none
  | some g => match look g.splits s.cur.entry, s.block g.block with
    | some sp, some blk => match s.part blk.part with
      | none => none
      | some p =>
        let pfx := s.cur.pfx.getD Prefix.zero
        let pred := maskOf fun l => g.kAt pfx.predicate.toNat l != pfx.negate
        let only := if sp.only == 0 then BitVec.allOnes 32 else sp.only
        some { s := s, gid := s.cur.gang, e := s.cur.entry, g := g, sp := sp, blk := blk, part := p, pid := blk.part, core := blk.core,
               pc := s.cur.pc, next := s.cur.pc + BitVec.ofNat 32 s.cur.size, word := s.cur.word, pfxWord := s.cur.pfxWord, pfx := pfx,
               active := sp.mask, live := sp.mask &&& pred &&& only,
               k2 := if sp.mode == .u then blk.hdr.compat else s.headerWord (s.pasid blk.part) (g.codeCap sp.mode) 0 |>.getLsbD 31 }
    | _, _ => none

/-- The group size: 32 in native mode, 16 in compatibility mode (R38, R80). -/
def Ctx.groupSize (c : Ctx) : Nat := if c.blk.hdr.compat then 16 else 32
/-- A lane's number within its group. -/
def Ctx.id (c : Ctx) (lane : Nat) : Nat := lane % c.groupSize
/-- The first lane of a lane's group. -/
def Ctx.groupBase (c : Ctx) (lane : Nat) : Nat := lane - lane % c.groupSize

/-- The cross-lane source rule (R38): a number outside the group gives the lane itself. -/
def Ctx.fromLane (c : Ctx) (lane : Nat) (number : Int) : Nat :=
  if 0 ≤ number && number < c.groupSize then c.groupBase lane + number.toNat else lane

/-- The lane a source modifier reads from (R80). -/
def Ctx.modLane (c : Ctx) (mod amt : Nat) (lane : Nat) : Nat :=
  match mod with
  | 0 => lane
  | 1 => c.groupBase lane + (c.id lane + amt) % c.groupSize
  | 2 => c.fromLane lane amt
  | _ => c.fromLane lane (c.id lane ^^^ amt)

/-- Which modifier of the prefix a source takes. -/
inductive SrcMod where
  | none
  | a
  | b
  deriving DecidableEq, Repr

/-- The lane from which a lane's source comes. -/
def Ctx.srcLane (c : Ctx) (m : SrcMod) (lane : Nat) : Nat :=
  match m with
  | .none => lane
  | .a => c.modLane c.pfx.modA.toNat c.pfx.amtA.toNat lane
  | .b => c.modLane c.pfx.modB.toNat c.pfx.amtB.toNat lane

/-- The key of a v or s register as the split names it. -/
def Ctx.vk (c : Ctx) (r : Nat) : Nat := vKey c.sp.mode r
def Ctx.sk (c : Ctx) (r : Nat) : Nat := sKey c.sp.mode r

/-- The value of a v source in a lane, after its modifier (R80). -/
def Ctx.v (c : Ctx) (r : Nat) (m : SrcMod) (lane : Nat) : Word := c.g.vAt (c.vk r) (c.srcLane m lane)
/-- A pair: the low word in the even register (R119). -/
def Ctx.v2 (c : Ctx) (r : Nat) (m : SrcMod) (lane : Nat) : BitVec 64 := c.v (r + 1) m lane ++ c.v r m lane
/-- The value of an s register. -/
def Ctx.sv (c : Ctx) (r : Nat) : Word := c.g.sAt (c.sk r)
/-- The value of a c register. -/
def Ctx.cv (c : Ctx) (r : Nat) : Cap := c.g.cAt c.sp r

/-- A source operand: n registers from r, with the empty policy (R58) and, for v, the modifier or the lane each lane reads
from. -/
inductive Src where
  | v (r n : Nat) (trap : Bool) (m : SrcMod)
  /-- A v register that each lane reads in another lane (R60). -/
  | cross (r : Nat) (trap : Bool) (lane : Ctx → Nat → Nat)
  | s (r n : Nat) (trap : Bool)
  /-- A k register, in each lane; and a c register, where the instruction reads it. Neither is ever empty (R56, R62). -/
  | k (r : Nat)
  | c (r : Nat) (used : Ctx → Bool := fun _ => true)

/-- A destination operand: n registers from r. -/
inductive Dst where
  | v (r n : Nat)
  | s (r n : Nat)

/-- Whether v register r may be named (R27, R54). -/
def Ctx.vOk (c : Ctx) (r : Nat) : Bool := decide (r < 64) && (decide (r < c.blk.hdr.regs) || (c.sp.mode != .u && decide (56 ≤ r)))

/-- Whether all n registers from r may be named. -/
def Ctx.vRange (c : Ctx) (r n : Nat) : Bool := (List.range n).all fun i => c.vOk (r + i)

def Ctx.srcOk (c : Ctx) : Src → Bool
  | .v r n _ _ => c.vRange r n
  | .cross r _ _ => c.vOk r
  | .s r n _ => decide (r + n ≤ 64)
  | .k _ => true
  | .c _ _ => true

def Ctx.dstOk (c : Ctx) : Dst → Bool
  | .v r n => c.vRange r n
  | .s r n => decide (r + n ≤ 64)

/-- The live lanes in which a source is empty (R58, R60); every active lane for an empty s register. -/
def Ctx.emptyLanes (c : Ctx) : Src → Mask
  | .v r n _ m => maskOf fun l => c.live.getLsbD l && (List.range n).any fun i => !c.g.vFull (c.vk (r + i)) (c.srcLane m l)
  | .cross r _ f => maskOf fun l => c.live.getLsbD l && !c.g.vFull (c.vk r) (f c l)
  | .s r n _ => if (List.range n).any fun i => !c.g.sFull (c.sk (r + i)) then c.active else 0
  | .k _ => 0
  | .c _ _ => 0

/-- The live lanes in which a source reads a register with an uncorrectable error (R213); every active lane for an s or c register. -/
def Ctx.badLanes (c : Ctx) : Src → Mask
  | .v r n _ m => maskOf fun l => c.live.getLsbD l && (List.range n).any fun i => (lookD 0 c.g.vBad (c.vk (r + i))).getLsbD (c.srcLane m l)
  | .cross r _ f => maskOf fun l => c.live.getLsbD l && (lookD 0 c.g.vBad (c.vk r)).getLsbD (f c l)
  | .s r n _ => if (List.range n).any fun i => lookD false c.g.sBad (c.sk (r + i)) then c.active else 0
  | .k r => if r == 0 then 0 else c.active &&& lookD 0 c.g.kBad r
  | .c r used => if used c && lookD false c.g.cBad (cKey c.sp.mode r) && !(r == 15 && c.sp.mode != .u) then c.active else 0

/-- The active lanes whose predicate lies in a k register with an uncorrectable error (R79, R213). -/
def Ctx.predBad (c : Ctx) : Mask := c.badLanes (.k c.pfx.predicate.toNat)

def Src.traps : Src → Bool
  | .v _ _ t _ => t
  | .cross _ t _ => t
  | .s _ _ t => t
  | .k _ => false
  | .c _ _ => false

/-- Whether a destination is empty in a lane the instruction writes (R59). -/
def Ctx.dstEmpty (c : Ctx) (m : Mask) : Dst → Bool
  | .v r n => (List.range n).any fun i => (lookD 0 c.g.vEmpty (c.vk (r + i)) &&& m) != 0
  | .s r n => (List.range n).any fun i => !c.g.sFull (c.sk (r + i))

/-- The privilege a mode holds (R20). -/
def modeRank : Mode → Nat := bankOf

/-- Whether the split holds every unexited lane, of each half it has a lane in under compatibility mode (R37). -/
def Ctx.converged (c : Ctx) : Bool :=
  let un := ~~~c.g.exited
  if c.blk.hdr.compat then
    [0x0000FFFF#32, 0xFFFF0000#32].all fun h => c.active &&& h == 0 || un &&& h == c.active &&& h
  else un == c.active

/-- What an instruction asks before it executes: the mode it needs (R92), its static rules (R76), whether K2 lacks it (R93), whether it is
collective (R37), its sources and destinations. also holds the register rules that depend on the kernel's declared counts (R27). -/
structure Needs where
  priv : Mode := .u
  wf   : Bool := true
  k2   : Bool := true
  coll : Bool := false
  also : Ctx → Bool := fun _ => true
  srcs : List Src := []
  dsts : List Dst := []

end Sys2Proof.Machine
end

