-- ==== Sys2Proof/Machine/Issue.lean ====
section
/-! DEFINITION. The frame of every instruction: the checks of R92, collective convergence, waiting on sources and destinations, the body,
and then the program counter, the counts and the trap of the lanes that failed. -/

namespace Sys2Proof.Machine

abbrev Out := Host.Outcome State Fault Refusal

/-- A lane that raised a cause (R8). -/
structure LaneFault where
  lane   : Nat
  cause  : Nat
  addr   : Nat
  detail : Nat

/-- What an instruction's body does. -/
inductive Act where
  /-- It completes; the lanes listed trap instead. -/
  | done (s : State) (faults : List LaneFault)
  /-- It completes and has set the program counters itself. -/
  | flow (s : State)
  /-- It stays at the instruction for the lanes left, having served the others (R227). -/
  | again (s : State) (left : Mask)
  /-- Every active lane raises a cause and nothing else changes. -/
  | trap (cause addr detail : Nat)
  /-- Every active lane traps with the resume address at the next instruction (R359). -/
  | call (cause addr detail : Nat)
  /-- It cannot execute yet; the split stays ready at it. -/
  | stall
  /-- It completes, and the split goes on only when the operation it started is done. -/
  | busy (s : State)
  /-- The split parks at the instruction, to execute it when it wakes (R41); the lanes listed trap. -/
  | park (s : State) (w : Wake) (faults : List LaneFault)
  /-- The split parks at the instruction, which has issued and is complete when it wakes (R41); the lanes listed trap. -/
  | wait (s : State) (w : Wake) (faults : List LaneFault)
  /-- The split parks and has passed the instruction. -/
  | parkNext (s : State) (w : Wake) (faults : List LaneFault)

/-- The sub-pipe event of an instruction word (R334, R392). -/
def pipeEvent (w : Word) : Nat :=
  if !w.getLsbD 0 then (if 12 ≤ (w.extractLsb' 1 4).toNat then 4 else 3)
  else
    let op := (w.extractLsb' 1 7).toNat
    if op ≤ 0x13 || op == 0x1B || op == 0x1C then 3
    else if op ≤ 0x1A then 4
    else if (0x61 ≤ op && op ≤ 0x6D) || op == 0x70 || op == 0x71 then 5
    else 6

/-- Whether an instruction word enters the matrix engine (R261, R266). -/
def entersMatrix (w : Word) : Bool :=
  w.getLsbD 0 && w.extractLsb' 1 7 == 0x6F && (0x08 ≤ w.extractLsb' 20 8 && w.extractLsb' 20 8 ≤ 0x0A)

/-- The issue of an instruction word by a split on a seat: seat g and handler seat 32 + h belong to quadrants g mod 4 and h (R334). -/
def pickOf (core : Nat) (gid seat : Nat) (m : Mask) (w : Word) : Pick :=
  { gang := gid, lanes := m, core := core, quad := seat % 4, pipe := pipeEvent w, matrix := entersMatrix w }

/-- Whether the issues of a gang count as skid: a block halt that it has not caused is on its way to it (R51). -/
def Ctx.skids (c : Ctx) : Bool := match c.blk.halt with
  | some h => !h.causes.any fun x => x.1 == c.gid
  | none => false

/-- An instruction has issued: the sub-pipe it takes in this clk (R334), the counts of its lanes (R174), the gang's skid under a block halt
(R51), and the issue events (R392). -/
def Ctx.issued (c : Ctx) (s : State) : State :=
  let s := { s with
    picks := pickOf c.core c.gid c.g.seat c.active c.word :: s.picks
    gangs := modify s.gangs c.gid fun g => { g with ticks := g.ticksWith c.active, skid := if c.skids then g.skid + 1 else g.skid } }
  (s.count c.core c.pid 2 1).count c.core c.pid (pipeEvent c.word) 1

/-- The trap of lanes that fail at issue: the lowest lane gives cause, address and detail (R355), RESUME is the instruction (R359). -/
def Ctx.faultTrap (c : Ctx) (fs : List LaneFault) (rest : Word) : Option PendingTrap :=
  let m := fs.foldl (fun m f => m ||| bit f.lane) 0
  match fs.find? (·.lane == lowest m) with
  | none => none
  | some f =>
    some { lanes := m, cause := f.cause, addr := f.addr, detail := f.detail, pc := c.pc, word := c.word, pfx := c.pfxWord,
           resume := c.pc, rest := rest, stay := c.pc, late := 0 }

def Ctx.raise (c : Ctx) (s : State) (fs : List LaneFault) (rest : Word) : State :=
  match c.faultTrap fs rest with
  | none => s
  | some t => s.takeTrap c.gid c.e t

/-- Traps every active lane. -/
def Ctx.trapAll (c : Ctx) (cause addr detail : Nat) (resume : Word) : State :=
  (c.issued c.s).takeTrap c.gid c.e
    { lanes := c.active, cause := cause, addr := addr, detail := detail, pc := c.pc, word := c.word, pfx := c.pfxWord, resume := resume,
      rest := c.next, stay := c.pc, late := 0 }

/-- Moves the split past the instruction. -/
def Ctx.advance (c : Ctx) (s : State) : State := s.updSplit c.gid c.e fun sp => { sp with pc := c.next, only := 0 }

/-- Carries out what a body decided, with the lanes that trapped on an empty source (R58). -/
def Ctx.finish (c : Ctx) (early : List LaneFault) (a : Act) : State :=
  match a with
  | .done s fs => c.raise (c.advance (c.issued s)) (early ++ fs) c.next
  | .flow s => s
  | .again s left => s.updSplit c.gid c.e fun sp => { sp with only := left }
  | .trap cause addr detail => c.trapAll cause addr detail c.pc
  | .call cause addr detail => c.trapAll cause addr detail c.next
  | .stall => c.s
  | .busy s => (c.advance (c.issued s)).updSplit c.gid c.e fun sp => { sp with run := .busy }
  | .park s w fs => c.raise (s.updSplit c.gid c.e fun sp => { sp with run := .parked w }) (early ++ fs) c.pc
  | .wait s w fs => c.raise ((c.issued s).updSplit c.gid c.e fun sp => { sp with run := .parked w }) (early ++ fs) c.pc
  | .parkNext s w fs =>
    c.raise ((c.advance (c.issued s)).updSplit c.gid c.e fun sp => { sp with run := .parked w }) (early ++ fs) c.next

/-- Lanes that read a register with an uncorrectable error take a containment fault, and the others execute the instruction again (R213; log
91). -/
def Ctx.poisonTrap (c : Ctx) (m : Mask) : State :=
  c.raise (c.issued c.s) ((lanesOf m).map fun l => { lane := l, cause := 20, addr := 0, detail := 0 }) c.pc

/-- The frame of an instruction (R92, R37, R58, R59, R7, R8). Checks 1 and 2 of R92 are the decoder's. -/
def issue (s : State) (n : Needs) (body : Ctx → Act) : Out :=
  match s.ctx with
  | none => .fault .noIssuer
  | some c =>
    if modeRank c.sp.mode < modeRank n.priv then .next (c.trapAll 33 0 0 c.pc)
    else if !n.wf || !n.also c || !n.srcs.all c.srcOk || !n.dsts.all c.dstOk then .next (c.trapAll 32 0 0 c.pc)
    else if !n.k2 && c.k2 then .next (c.trapAll 32 0 0 c.pc)
    else if n.coll && !c.converged then .next (c.trapAll 35 0 0 c.pc)
    else if n.srcs.any fun x => !x.traps && c.emptyLanes x != 0 then .next s
    else
      let bad := n.srcs.foldl (fun m x => if x.traps then m ||| c.emptyLanes x else m) 0
      let hit := n.srcs.foldl (fun m x => m ||| c.badLanes x) c.predBad
      let c' := { c with live := c.live &&& ~~~bad }
      if hit != 0 then .next (c.poisonTrap hit)
      else if bad == c.active then .next (c.trapAll 40 0 0 c.pc)
      else if n.dsts.any (c.dstEmpty c'.live) then .next s
      else .next (c'.finish ((lanesOf bad).map fun l => { lane := l, cause := 40, addr := 0, detail := 0 }) (body c'))

/-- Completes with a change to the issuing gang only. -/
def Ctx.gangDone (c : Ctx) (f : Gang → Gang) : Act := .done (c.s.setGang c.gid (f c.g)) []

/-- Writes a v register in every live lane. -/
def Ctx.writeV (c : Ctx) (r : Nat) (f : Nat → Word) : Act := c.gangDone fun g => g.setVs (c.vk r) (lanesOf c.live) f

/-- Writes a pair in every live lane. -/
def Ctx.writeV2 (c : Ctx) (r : Nat) (f : Nat → BitVec 64) : Act :=
  c.gangDone fun g => (g.setVs (c.vk r) (lanesOf c.live) fun l => (f l).extractLsb' 0 32).setVs (c.vk (r + 1)) (lanesOf c.live)
    fun l => (f l).extractLsb' 32 32

/-- Writes an s register once (R125). -/
def Ctx.writeS (c : Ctx) (r : Nat) (x : Word) : Act := c.gangDone fun g => g.setS (c.sk r) x

/-- Writes a k register in every live lane (R56). -/
def Ctx.writeK (c : Ctx) (k : Nat) (f : Nat → Bool) : Act := c.gangDone fun g => g.setK k c.live (maskOf f)

end Sys2Proof.Machine
end

