-- ==== Sys2Proof/Machine/Flags.lean ====
section
/-! DEFINITION. The relations that compares write to k registers, the part's only flags (R56, R115, R124). The part has no status
flags: no arithmetic instruction sets one (R135). -/

namespace Sys2Proof.Machine

/-- Signed and natural order of 32-bit patterns (R115). -/
def sltS (a b : Word) : Bool := decide (a.toInt < b.toInt)
def sleS (a b : Word) : Bool := decide (a.toInt ≤ b.toInt)
def sltN (a b : Word) : Bool := decide (a.toNat < b.toNat)
def sleN (a b : Word) : Bool := decide (a.toNat ≤ b.toNat)

end Sys2Proof.Machine
end

