-- ==== Sys2Proof/Machine/Float.lean ====
section
/-! DEFINITION. Number formats and floating-point results (07): formats, rounding, arithmetic, compares, conversions, the functions of
R139 and the SB formats. Every function is on bit patterns and computes exactly before one rounding. -/

namespace Sys2Proof.Machine

/-! ### Formats and rounding (R129 to R131) -/

/-- A binary format: the widths of its exponent and fraction. -/
structure Fmt where
  exp  : Nat
  frac : Nat

def f32 : Fmt := ⟨8, 23⟩
def f16 : Fmt := ⟨5, 10⟩
def bf16 : Fmt := ⟨8, 7⟩

/-- The exponent of the last place of a subnormal. -/
def Fmt.emin (f : Fmt) : Int := 2 - 2 ^ (f.exp - 1) - f.frac
/-- The patterns of +∞, of the canonical NaN (R130), of the sign. -/
def Fmt.inf (f : Fmt) : Nat := (2 ^ f.exp - 1) * 2 ^ f.frac
def Fmt.nan (f : Fmt) : Nat := f.inf + 2 ^ (f.frac - 1)
def Fmt.signed (f : Fmt) (neg : Bool) (x : Nat) : Nat := if neg then 2 ^ (f.exp + f.frac) + x else x

/-- A value: a NaN, an infinity, or ± m × 2^e. -/
inductive FVal where
  | nan
  | inf (neg : Bool)
  | fin (neg : Bool) (m : Nat) (e : Int)
  deriving DecidableEq, Repr

/-- What a pattern stands for (R129). -/
def Fmt.val (f : Fmt) (x : Nat) : FVal :=
  let neg := x / 2 ^ (f.exp + f.frac) % 2 == 1
  let e := x / 2 ^ f.frac % 2 ^ f.exp
  let m := x % 2 ^ f.frac
  if e == 2 ^ f.exp - 1 then (if m == 0 then .inf neg else .nan)
  else if e == 0 then .fin neg m f.emin
  else .fin neg (m + 2 ^ f.frac) (f.emin + e - 1)

/-- Rounds m / 2^n to an integer magnitude in a mode (R131): 0 RNE, 1 RZ, 2 RU, 3 RD. -/
def roundShift (rm : Nat) (neg : Bool) (m n : Nat) : Nat :=
  let q := m / 2 ^ n
  let r := m % 2 ^ n
  let up := match rm with
    | 0 => decide (2 ^ n < 2 * r) || (2 * r == 2 ^ n && q % 2 == 1)
    | 1 => false
    | 2 => r != 0 && !neg
    | _ => r != 0 && neg
  if up then q + 1 else q

/-- Rounds ± m × 2^e, m not 0, to a format (R131). -/
def Fmt.round (f : Fmt) (rm : Nat) (neg : Bool) (m : Nat) (e : Int) : Nat :=
  let q := max (e + m.log2 - f.frac) f.emin
  let k := if e ≤ q then roundShift rm neg m (q - e).toNat else m * 2 ^ (e - q).toNat
  let x := (q - f.emin).toNat * 2 ^ f.frac + k
  let beyond := if rm == 0 || (rm == 2 && !neg) || (rm == 3 && neg) then f.inf else f.inf - 1
  f.signed neg (if f.inf ≤ x then beyond else x)

/-- Rounds an exact sum x × 2^e; zeroNeg is the sign of an exact zero. -/
def Fmt.roundInt (f : Fmt) (rm : Nat) (zeroNeg : Bool) (x : Int) (e : Int) : Nat :=
  if x = 0 then f.signed zeroNeg 0 else f.round rm (decide (x < 0)) x.natAbs e

/-! ### Arithmetic (R137, R138, R140, R141) -/

def signedInt (neg : Bool) (m : Nat) : Int := if neg then -(m : Int) else m

/-- The rounded sum of two exact finite values. -/
def Fmt.sum (f : Fmt) (rm : Nat) (s : Bool) (m : Nat) (e : Int) (t : Bool) (n : Nat) (k : Int) : Nat :=
  let q := min e k
  let x := signedInt s (m * 2 ^ (e - q).toNat) + signedInt t (n * 2 ^ (k - q).toNat)
  f.roundInt rm (if s == t then s else rm == 3) x q

def Fmt.add (f : Fmt) (rm : Nat) (a b : Nat) : Nat :=
  match f.val a, f.val b with
  | .nan, _ => f.nan
  | _, .nan => f.nan
  | .inf s, .inf t => if s == t then f.signed s f.inf else f.nan
  | .inf s, .fin .. => f.signed s f.inf
  | .fin .., .inf t => f.signed t f.inf
  | .fin s m e, .fin t n k => f.sum rm s m e t n k

def Fmt.neg (f : Fmt) (x : Nat) : Nat := if x < 2 ^ (f.exp + f.frac) then x + 2 ^ (f.exp + f.frac) else x - 2 ^ (f.exp + f.frac)
def Fmt.sub (f : Fmt) (rm : Nat) (a b : Nat) : Nat := f.add rm a (f.neg b)

def Fmt.mul (f : Fmt) (rm : Nat) (a b : Nat) : Nat :=
  match f.val a, f.val b with
  | .nan, _ => f.nan
  | _, .nan => f.nan
  | .inf s, .inf t => f.signed (s != t) f.inf
  | .inf s, .fin t n _ => if n == 0 then f.nan else f.signed (s != t) f.inf
  | .fin s m _, .inf t => if m == 0 then f.nan else f.signed (s != t) f.inf
  | .fin s m e, .fin t n k => if m * n == 0 then f.signed (s != t) 0 else f.round rm (s != t) (m * n) (e + k)

def Fmt.div (f : Fmt) (rm : Nat) (a b : Nat) : Nat :=
  match f.val a, f.val b with
  | .nan, _ => f.nan
  | _, .nan => f.nan
  | .inf _, .inf _ => f.nan
  | .inf s, .fin t _ _ => f.signed (s != t) f.inf
  | .fin s _ _, .inf t => f.signed (s != t) 0
  | .fin s m e, .fin t n k =>
    if n == 0 then (if m == 0 then f.nan else f.signed (s != t) f.inf)
    else if m == 0 then f.signed (s != t) 0
    else
      let x := m * 2 ^ 64
      f.round rm (s != t) (2 * (x / n) + (if x % n == 0 then 0 else 1)) (e - k - 65)

/-- The integer square root, by n bits from the top. -/
def isqrt (x : Nat) : Nat → Nat → Nat
  | 0, acc => acc
  | n + 1, acc => isqrt x n (if (acc + 2 ^ n) * (acc + 2 ^ n) ≤ x then acc + 2 ^ n else acc)
def root (x : Nat) : Nat := isqrt x (x.log2 / 2 + 1) 0

def Fmt.sqrt (f : Fmt) (rm : Nat) (a : Nat) : Nat :=
  match f.val a with
  | .nan => f.nan
  | .inf s => if s then f.nan else f.inf
  | .fin s m e =>
    if m == 0 then f.signed s 0
    else if s then f.nan
    else
      let x := if e % 2 = 0 then m * 2 ^ 64 else m * 2 ^ 65
      let r := root x
      f.round rm false (2 * r + (if r * r == x then 0 else 1)) ((e - e % 2) / 2 - 32 - 1)

/-- The total order in which −0 lies below +0, on values that are no NaN (R138). -/
def Fmt.key (f : Fmt) (x : Nat) : Int := if x < 2 ^ (f.exp + f.frac) then x else 2 ^ (f.exp + f.frac) - 1 - (x : Int)
def Fmt.isNan (f : Fmt) (x : Nat) : Bool := decide (f.inf < x % 2 ^ (f.exp + f.frac))
def Fmt.isInf (f : Fmt) (x : Nat) : Bool := x % 2 ^ (f.exp + f.frac) == f.inf
def Fmt.min (f : Fmt) (a b : Nat) : Nat :=
  if f.isNan a then (if f.isNan b then f.nan else b) else if f.isNan b then a else if f.key a ≤ f.key b then a else b
def Fmt.max (f : Fmt) (a b : Nat) : Nat :=
  if f.isNan a then (if f.isNan b then f.nan else b) else if f.isNan b then a else if f.key a ≤ f.key b then b else a

/-- a × b + c with one rounding (R140). -/
def Fmt.fma (f : Fmt) (rm : Nat) (a b c : Nat) : Nat :=
  match f.val a, f.val b, f.val c with
  | .nan, _, _ => f.nan
  | _, .nan, _ => f.nan
  | _, _, .nan => f.nan
  | .fin s m e, .fin t n k, .fin u p j => f.sum rm (s != t) (m * n) (e + k) u p j
  | .fin .., .fin .., .inf u => f.signed u f.inf
  | x, y, z =>
    let zero := match x, y with
      | .fin _ 0 _, _ => true
      | _, .fin _ 0 _ => true
      | _, _ => false
    let s := (a / 2 ^ (f.exp + f.frac) + b / 2 ^ (f.exp + f.frac)) % 2 == 1
    if zero then f.nan
    else match z with
      | .inf u => if u == s then f.signed s f.inf else f.nan
      | _ => f.signed s f.inf

/-- FCMP's relations (R141): both zeros compare equal, and a NaN is unordered. -/
def fEq (a b : Word) : Bool :=
  !f32.isNan a.toNat && !f32.isNan b.toNat && (a == b || (a.toNat % 2 ^ 31 == 0 && b.toNat % 2 ^ 31 == 0))
def fLt (a b : Word) : Bool :=
  !f32.isNan a.toNat && !f32.isNan b.toNat && !fEq a b && decide (f32.key a.toNat < f32.key b.toNat)
def fLe (a b : Word) : Bool := fLt a b || fEq a b
def fUn (a b : Word) : Bool := f32.isNan a.toNat || f32.isNan b.toNat

def w32 (n : Nat) : Word := BitVec.ofNat 32 n
def f32op (f : Nat → Nat → Nat → Nat) (rm : Nat) (a b : Word) : Word := w32 (f rm a.toNat b.toNat)
/-- An operation on both halves (R142). -/
def halves2 (f : Nat → Nat → Nat) (a b : Word) : Word :=
  w32 (f (a.toNat / 65536) (b.toNat / 65536) * 65536 + f (a.toNat % 65536) (b.toNat % 65536))
def halves3 (f : Nat → Nat → Nat → Nat) (a b c : Word) : Word :=
  w32 (f (a.toNat / 65536) (b.toNat / 65536) (c.toNat / 65536) * 65536 + f (a.toNat % 65536) (b.toNat % 65536) (c.toNat % 65536))
def fabsBits (a : Word) : Word := a &&& 0x7FFFFFFF
def fnegBits (a : Word) : Word := a ^^^ 0x80000000

/-! ### Conversions (R144, R145) -/

/-- A value in another format. -/
def reformat (src dst : Fmt) (rm : Nat) (x : Nat) : Nat :=
  match src.val x with
  | .nan => dst.nan
  | .inf s => dst.signed s dst.inf
  | .fin s m e => if m == 0 then dst.signed s 0 else dst.round rm s m e

/-- The integer magnitude of m × 2^e rounded in a mode. -/
def integral (rm : Nat) (neg : Bool) (m : Nat) (e : Int) : Nat :=
  if 0 ≤ e then m * 2 ^ e.toNat else roundShift rm neg m (-e).toNat

def cvtF32S (rm : Nat) (a : Word) : Word := w32 (f32.roundInt rm false a.toInt 0)
def cvtF32N (rm : Nat) (a : Word) : Word := w32 (f32.roundInt rm false a.toNat 0)
def cvtInt (lo hi : Int) (rm : Nat) (a : Word) : Word :=
  match f32.val a.toNat with
  | .nan => 0
  | .inf s => BitVec.ofInt 32 (if s then lo else hi)
  | .fin s m e => BitVec.ofInt 32 (max lo (min hi (signedInt s (integral rm s m e))))
def cvtS (rm : Nat) (a : Word) : Word := cvtInt (-2147483648) 2147483647 rm a
def cvtN (rm : Nat) (a : Word) : Word := cvtInt 0 4294967295 rm a
def frndBits (rm : Nat) (a : Word) : Word :=
  match f32.val a.toNat with
  | .nan => w32 f32.nan
  | .inf _ => a
  | .fin s m e =>
    let x := integral rm s m e
    w32 (if x == 0 then f32.signed s 0 else f32.round 0 s x 0)

/-! ### The functions of stated accuracy (R139)

Exact values are held as integers in units of 2^-224, in which every finite FP32 value is exact. The part's own value (Config) is
taken when it lies within the rule's bound of the exact result; else the exact result, rounded, is taken, which always does. The
enclosures of the transcendental results are wider than the exact ones by far less than 2^-48 of the bound (log 21). -/

def fixOne : Int := 2 ^ 224
/-- A finite FP32 pattern in units of 2^-224. -/
def fixOf (x : Word) : Option Int :=
  match f32.val x.toNat with
  | .fin s m e => some (signedInt s (m * 2 ^ (e + 224).toNat))
  | _ => none
/-- The FP32 spacing at an exact magnitude, in units of 2^-224. -/
def ulpAt (y : Int) : Int := 2 ^ (max (y.natAbs.log2 - 23) 75)
/-- The part's own value where it lies within a bound of every result that the enclosure lo to hi leaves, else the rounded lo. -/
def within (cand : Word) (lo hi bound : Int) : Word :=
  match fixOf cand with
  | some c => if hi - bound ≤ c && c ≤ lo + bound then cand else w32 (f32.roundInt 0 false lo (-224))
  | none => w32 (f32.roundInt 0 false lo (-224))
/-- NaN results are canonical (R130). -/
def canon (x : Word) : Word := if f32.isNan x.toNat then w32 f32.nan else x
/-- Applies f to a finite operand in units of 2^-224; a NaN gives the canonical NaN. -/
def onFinite (a : Word) (inf : Bool → Nat) (f : Bool → Int → Word) : Word :=
  match f32.val a.toNat with
  | .nan => w32 f32.nan
  | .inf s => w32 (inf s)
  | .fin s m e => f s (signedInt s (m * 2 ^ (e + 224).toNat))

/-- Whether a magnitude is a power of two. -/
def isPow2 (n : Nat) : Bool := n == 2 ^ n.log2

/-- FRCP. A reciprocal beyond the largest finite value has no stated result and takes the part's own (log 21). -/
def frcpOf (a : Word) : Word :=
  onFinite a (fun s => f32.signed s 0) fun s x =>
    if x == 0 then w32 (f32.signed s f32.inf)
    else
      let n := x.natAbs
      let y := 2 ^ 448 / n
      if isPow2 n && y < 2 ^ 352 then w32 (f32.round 0 s y (-224))
      else if 2 ^ 352 ≤ y then canon (Config.frcp a)
      else if s then within (Config.frcp a) (-(y : Int) - 1) (-(y : Int)) (ulpAt y)
      else within (Config.frcp a) y (y + 1) (ulpAt y)

def frsqOf (a : Word) : Word :=
  onFinite a (fun s => if s then f32.nan else 0) fun s x =>
    if x == 0 then w32 (f32.signed s f32.inf)
    else if s then w32 f32.nan
    else
      let y := root (2 ^ 672 / x.natAbs)
      within (Config.frsq a) y (y + 1) (ulpAt y)

/-- 2^f for f of n / 2^64, in units of 2^-128: the product over the bits of n of the repeated square roots of 2. -/
def exp2Frac (n : Nat) : Nat → Nat → Nat → Nat
  | 0, _, acc => acc
  | k + 1, r, acc =>
    let r := root (r * 2 ^ 128)
    exp2Frac n k r (if n / 2 ^ k % 2 == 1 then acc * r / 2 ^ 128 else acc)

def fexp2Of (a : Word) : Word :=
  onFinite a (fun s => if s then 0 else f32.inf) fun _ x =>
    let n := x / fixOne
    let f := (x % fixOne).toNat
    if 128 ≤ n then w32 f32.inf
    else if f == 0 && (-149) ≤ n then w32 (f32.round 0 false 1 n)
    else if n < -160 then within (Config.fexp2 a) 0 (2 ^ 64) (2 * ulpAt 0)
    else
      let y : Nat := exp2Frac (f / 2 ^ 160) 64 (2 ^ 129) (2 ^ 128) * 2 ^ (n + 160).toNat / 2 ^ 64
      within (Config.fexp2 a) (y : Int) ((y + y / 2 ^ 56 + 1 : Nat) : Int) (2 * ulpAt y)

/-- The fraction of log2 t, 1 ≤ t < 2 in units of 2^-192, to k bits. -/
def log2Frac : Nat → Nat → Nat → Nat
  | 0, _, acc => acc
  | k + 1, t, acc =>
    let q := t * t / 2 ^ 192
    if 2 ^ 193 ≤ q then log2Frac k (q / 2) (2 * acc + 1) else log2Frac k q (2 * acc)

def flog2Of (a : Word) : Word :=
  onFinite a (fun s => if s then f32.nan else f32.inf) fun s x =>
    if x == 0 then w32 (f32.signed true f32.inf)
    else if s then w32 f32.nan
    else
      let n := x.natAbs
      let e : Int := (n.log2 : Int) - 224
      if isPow2 n then w32 (f32.roundInt 0 false e 0)
      else
        let t := if n.log2 ≤ 192 then n * 2 ^ (192 - n.log2) else n / 2 ^ (n.log2 - 192)
        let y := e * fixOne + (log2Frac 80 t 0 : Int) * 2 ^ 144
        let bound := if 2 ^ 223 ≤ x && x ≤ 2 ^ 225 then 2 ^ 202 else 2 * ulpAt y
        within (Config.flog2 a) (y - 2 ^ 150) (y + 2 ^ 150) bound

/-- π in units of 2^-96. -/
def pi96 : Nat := 0x3243F6A8885A308D313198A2E
/-- The Taylor terms of sin or cos from a term t on, in units of 2^-96: k numbers the next factor, z2 is the square of the angle. -/
def taylor (z2 : Nat) : Nat → Nat → Nat → Int → Int
  | 0, _, _, acc => acc
  | n + 1, k, t, acc => acc + t - taylor z2 n (k + 2) (t * z2 / 2 ^ 96 / (k * (k + 1))) 0
/-- sin (π r) for 0 ≤ r ≤ 1/2 in units of 2^-96, and cos (π r). -/
def sinPi (r : Nat) : Int := let z := pi96 * r / 2 ^ 96; taylor (z * z / 2 ^ 96) 20 2 z 0
def cosPi (r : Nat) : Int := let z := pi96 * r / 2 ^ 96; taylor (z * z / 2 ^ 96) 20 1 (2 ^ 96) 0
/-- sin (π x), x in units of 2^-96 and 0 ≤ x < 2. -/
def sinTurn (x : Nat) : Int :=
  let h := 2 ^ 95
  let q := x / h
  let r := x % h
  match q with
  | 0 => sinPi r
  | 1 => cosPi r
  | 2 => -sinPi r
  | _ => -cosPi r

def trigOf (cand : Word) (shift : Nat) (x : Int) : Word :=
  let t := (x % (2 * fixOne)).toNat / 2 ^ 128
  let y := sinTurn ((t + shift) % 2 ^ 97) * 2 ^ 128
  within cand (y - 2 ^ 150) (y + 2 ^ 150) (2 ^ 202)

def fsinOf (a : Word) : Word :=
  onFinite a (fun _ => f32.nan) fun s x =>
    if x % fixOne == 0 then w32 (f32.signed s 0)
    else if x % fixOne == fixOne / 2 then w32 (f32.signed (x % (2 * fixOne) != fixOne / 2) 0x3F800000)
    else trigOf (Config.fsin a) 0 x

def fcosOf (a : Word) : Word :=
  onFinite a (fun _ => f32.nan) fun _ x =>
    if x % fixOne == fixOne / 2 then 0
    else if x % fixOne == 0 then w32 (f32.signed (x % (2 * fixOne) != 0) 0x3F800000)
    else trigOf (Config.fcos a) (2 ^ 95) x

/-! ### SB blocks (R132, R133, R146, R147) -/

/-- A finite FP32 magnitude in units of 2^-149. -/
def magOf (x : Word) : Nat :=
  match f32.val x.toNat with
  | .fin _ m e => m * 2 ^ (e + 149).toNat
  | _ => 0

/-- The largest micro-shift of a quad of magnitudes under a block maximum. -/
def microShift (m : Nat) (quad : List Nat) : Nat :=
  ((List.range 4).filter fun j => j == 0 || quad.all fun x => decide (x * 2 ^ j < m)).foldl max 0

/-- The scale word of a block (R133) and its element codes (R146), for elements of w magnitude bits. -/
def quantBlock (w : Nat) (xs : List Word) : Nat × List Nat :=
  if xs.any fun x => f32.isNan x.toNat || f32.isInf x.toNat then (255 * 256, xs.map fun _ => 0)
  else
    let mags := xs.map magOf
    let m := mags.foldl max 0
    let e : Int := if m == 0 then -127 else (m.log2 : Int) - 149
    let x := max (e + 127) 0
    let mu := (List.range 4).map fun q => microShift m ((mags.drop (4 * q)).take 4)
    let code := (List.range 16).map fun i =>
      let sh := (x + 22 - ((mu.getD (i / 4) 0 : Nat) : Int) - ((w : Int) - 1)).toNat
      let k := min (roundShift 0 false (mags.getD i 0) sh) (2 ^ w - 1)
      (if (xs.getD i 0).msb then 2 ^ w else 0) + k
    (x.toNat * 256 + mu.getD 3 0 * 64 + mu.getD 2 0 * 16 + mu.getD 1 0 * 4 + mu.getD 0 0, code)

/-- An SB element as an exact value m × 2^e: its scale word, index in the block, and code; none under the NaN scale (R132). -/
def sbValue (w : Nat) (scale i code : Nat) : Option (Int × Int) :=
  let x := scale / 256
  if x == 255 then none
  else
    let mu := scale / 4 ^ (i % 16 / 4) % 4
    let m := code % 2 ^ w
    some (signedInt (code / 2 ^ w % 2 == 1) m, (x : Int) - 127 - mu - (w - 1))

/-- DEQ (R147). -/
def deq (w : Nat) (a b : Word) : Word :=
  match sbValue w (a.toNat / 65536) (b.toNat % 16) (a.toNat % 2 ^ (w + 1)) with
  | none => w32 f32.nan
  | some (m, e) => w32 (f32.roundInt 0 false m e)

end Sys2Proof.Machine
end

