-- ==== Sys2Proof/Machine/Image.lean ====
section
/-! DEFINITION. What an access, a tile load and a drain read or write in memory, where, and in which place of their lanes' program order (R235,
R254, R292). -/

namespace Sys2Proof.Machine

/-! ### Elements and tile images (R65, R134, R230, R254) -/

/-- The bits of an element by FORMAT (R65, R230); 7 is bytes. -/
def elemBits (format : Nat) : Nat :=
  match format with
  | 1 => 16
  | 2 => 16
  | 3 => 32
  | 4 => 8
  | 5 => 5
  | 6 => 3
  | _ => 8

/-- Whether a format is an SB format. -/
def isSb (format : Nat) : Bool := 4 ≤ format && format ≤ 6

def cfgFormat (x : Word) : Nat := (x.extractLsb' 0 4).toNat
def cfgRows (x : Word) : Nat := (x.extractLsb' 8 7).toNat
def cfgCols (x : Word) : Nat := (x.extractLsb' 16 9).toNat

/-- The bytes of a row of a tile image (R254). -/
def rowBytes (cfg : Word) : Nat := 16 * ((cfgCols cfg * elemBits (cfgFormat cfg) + 127) / 128)
/-- The scale words per row, and the bytes of a scale area of r rows. -/
def scalesPerRow (cfg : Word) : Nat := if isSb (cfgFormat cfg) then cfgCols cfg / 16 else 0
def scaleArea (cfg : Word) (r : Nat) : Nat := (2 * r * scalesPerRow cfg + 15) / 16 * 16

/-- The regions of a tile image of r rows at offset o with pitch p: offset and size, the scale area last (R254). -/
def imageRegions (cfg : Word) (r o p : Nat) : List (Nat × Nat) :=
  ((List.range r).map fun i => (o + i * p, rowBytes cfg)) ++
    (if scaleArea cfg r == 0 then [] else [(o + r * p, scaleArea cfg r)])

/-! ### Accesses -/

/-- Whether an access writes, and whether it reads. -/
def Access.writes : Access → Bool
  | .store _ => true
  | .storeCap _ => true
  | .atomic .. => true
  | .sign => true
  | .alight _ => true
  | _ => false
def Access.reads : Access → Bool
  | .store _ => false
  | .storeCap _ => false
  | .alight _ => false
  | .sign => false
  | .prefetch => false
  | .record _ => false
  | .phase _ => false
  | .phalt _ _ => false
  | .enter _ => false
  | .join _ _ => false
  | _ => true

/-- Whether an access is a load of memory. -/
def Access.isLoad : Access → Bool
  | .load _ _ => true
  | .loadCap _ => true
  | _ => false

/-- Whether an access is an atomic update. -/
def Access.isAtomic : Access → Bool
  | .atomic .. => true
  | _ => false

/-- The lanes of an access. -/
def Req.lanes (r : Req) : Mask := if r.lane < 32 then bit r.lane else r.mask

/-- Whether an access is a strong store or an atomic: what a fence with release before it makes a release (R234, R236). -/
def Req.strongWrite (r : Req) : Bool := r.acc.isAtomic || (r.acc.writes && r.scope != 0)

/-- Whether two accesses are by one lane of one gang. -/
def Req.sameLane (r q : Req) : Bool := r.gang == q.gang && q.touches r.lanes

/-- An access's place in its lanes' program order: the memory side of a flue operation stands where the operation does (R292). -/
def Req.order (id : Nat) (r : Req) : Nat :=
  match r.acc with
  | .board k => k
  | .alight k => k
  | _ => id

/-- Whether n bytes at a and m bytes at b have one in common. -/
def overlap (a n b m : Nat) : Bool := decide (a < b + m) && decide (b < a + n)

/-! ### Scratchpad places (R205, R207) -/

/-- The size of a block's scratchpad allocation (R205). -/
def Block.padSize (b : Block) : Nat := b.hdr.scratch * 4096

/-- The block and offset that a block's scratchpad or window offset names, if it lies within the allocation (R205, R207). A block that has
completed holds none that the window could reach (R325). -/
def State.padPlace (s : State) (bid : Nat) (win : Bool) (off : Int) (size : Nat) : Option (Nat × Nat) :=
  match s.block bid with
  | none => none
  | some blk =>
    if off < 0 then none
    else if !win then (if off.toNat + size ≤ blk.padSize then some (bid, off.toNat) else none)
    else
      match blk.group with
      | none => none
      | some (grp, _) =>
        let o := off.toNat % 2 ^ 18
        match s.blocks.find? fun (_, b) => b.group == some (grp, off.toNat / 2 ^ 18) && !b.done with
        | some (id, b) => if o + size ≤ b.padSize then some (id, o) else none
        | none => none

/-- The empty lines among those that places touch (R206). -/
def State.emptyLines (s : State) (places : List (Nat × Nat)) (size : Nat) : List (Nat × Nat) :=
  places.flatMap fun (id, o) => match s.block id with
    | some b => ((unitsOf 128 o size).filter fun u => lookD false b.padEmpty u).map fun u => (id, u)
    | none => []

/-- Whether a line of a place was filled through the cluster window (R242). -/
def State.padFarAt (s : State) (x : Nat × Nat) (size : Nat) : Bool :=
  ((s.block x.1).map fun b => (unitsOf 128 x.2 size).any fun u => lookD false b.padFar u).getD false

/-! ### Tile loads and drains (R259, R271) -/

/-- The regions of its image that a tile load has yet to read. -/
def TileOp.rest (t : TileOp) : List (Nat × Nat) := (imageRegions t.cfg (cfgRows t.cfg) t.offset t.pitch).drop t.next

/-- The places in the flat space that a tile load has yet to read. -/
def TileOp.left (t : TileOp) : List (Nat × Nat) := if t.space != 0 then [] else t.rest.map fun (o, n) => (t.cap.at o, n)

/-- The places in scratchpads that a tile load has yet to read: block, offset and size. -/
def State.padLeft (s : State) (t : TileOp) : List (Nat × Nat × Nat) :=
  if t.space == 0 then [] else t.rest.filterMap fun (o, n) => (s.padPlace t.block (t.space == 2) o n).map fun (b, k) => (b, k, n)

/-- Whether what a tile load has yet to read of scratchpads makes it an acquire: a line that has still to be filled, or one that was filled
through the cluster window (R242). -/
def State.padAwaits (s : State) (t : TileOp) (farOnly : Bool) : Bool :=
  (s.padLeft t).any fun (b, k, n) => s.padFarAt (b, k) n || (!farOnly && !(s.emptyLines [(b, k)] n).isEmpty)

/-- The sectors of a drain (R273), and the destination offset of one. -/
def Drain.sectors (d : Drain) : Nat := d.rows * d.cols / 8
def Drain.offsetOf (d : Drain) (i : Nat) : Nat := d.offset + i / (d.cols / 8) * d.pitch + i % (d.cols / 8) * 32

/-- The places in the flat space that a drain has yet to write. -/
def Drain.left (d : Drain) : List (Nat × Nat) :=
  if d.space != 0 then [] else (List.range d.sectors).filterMap fun i => if i < d.next then none else some (d.cap.at (d.offsetOf i : Nat), 32)

/-- Whether a write of some lanes, numbered below n, to n bytes of a block's scratchpad must wait: an earlier tile load of theirs has yet to read
one of them. A row that an empty line holds back holds nothing back itself (log 103). -/
def State.padUnread (s : State) (gid : Nat) (m : Mask) (id : Nat) (bid off size : Nat) : Bool :=
  s.tileOps.any fun (k, t) => decide (k < id) && t.gang == gid && t.mask &&& m != 0 && t.fault.isNone &&
    (s.padLeft t).any fun (b, o, n) => b == bid && overlap o n off size && (s.emptyLines [(b, o)] n).isEmpty

end Sys2Proof.Machine
end

