-- ==== Sys2Proof/Machine/Integer.lean ====
section
/-! DEFINITION. Integer, logic and address instructions (06): pure results on 32-bit patterns and pairs, the shared lane and uniform
forms, and one meaning per instruction. -/

namespace Sys2Proof.Machine

/-! ### Results (R112 to R122) -/

/-- Clamps an integer to the signed 32-bit range, and to the natural range (R112). -/
def clampS (x : Int) : Word := BitVec.ofInt 32 (max (-2147483648) (min 2147483647 x))
def clampN (x : Int) : Word := BitVec.ofInt 32 (max 0 (min 4294967295 x))

def iMulhS (a b : Word) : Word := (BitVec.ofInt 64 (a.toInt * b.toInt)).extractLsb' 32 32
def iMulhN (a b : Word) : Word := BitVec.ofNat 32 (a.toNat * b.toNat / 2 ^ 32)
def iMinS (a b : Word) : Word := if a.toInt ≤ b.toInt then a else b
def iMaxS (a b : Word) : Word := if a.toInt ≤ b.toInt then b else a
def iMinN (a b : Word) : Word := if a.toNat ≤ b.toNat then a else b
def iMaxN (a b : Word) : Word := if a.toNat ≤ b.toNat then b else a
def iAbs (a : Word) : Word := if a.msb then -a else a
def iAddS (a b : Word) : Word := clampS (a.toInt + b.toInt)
def iSubS (a b : Word) : Word := clampS (a.toInt - b.toInt)
def iAddN (a b : Word) : Word := clampN ((a.toNat : Int) + b.toNat)
def iSubN (a b : Word) : Word := clampN ((a.toNat : Int) - b.toNat)

/-- Shifts by the whole of the count (R113). -/
def shl {n : Nat} (a : BitVec n) (c : Nat) : BitVec n := if c < n then a <<< c else 0
def shr {n : Nat} (a : BitVec n) (c : Nat) : BitVec n := if c < n then a >>> c else 0
def sar {n : Nat} (a : BitVec n) (c : Nat) : BitVec n := BitVec.sshiftRight a (min c (n - 1))
def rol (a b : Word) : Word := a.rotateLeft (b.toNat % 32)
/-- The number of 1 bits among the low n bits. -/
def popcount : Nat → Nat → Nat
  | 0, _ => 0
  | n + 1, x => x % 2 + popcount n (x / 2)
def popc (a : Word) : Word := BitVec.ofNat 32 (popcount 32 a.toNat)
/-- The number of 0 bits above the highest 1 bit (R113). -/
def clz (a : Word) : Word := BitVec.ofNat 32 (if a == 0 then 32 else 31 - a.toNat.log2)
def brev (a : Word) : Word := a.reverse

/-- The field of a control word: position and effective width (R118). -/
def fieldOf (ctl : Word) : Nat × Nat :=
  let p := ctl.toNat % 32
  (p, min (min (ctl.toNat / 256 % 64) 32) (32 - p))
def bfi (a b ctl : Word) : Word :=
  let (p, w) := fieldOf ctl
  let m : Word := BitVec.ofNat 32 ((2 ^ w - 1) * 2 ^ p)
  (b &&& ~~~m) ||| ((a <<< p) &&& m)
def bfeN (a ctl : Word) : Word := let (p, w) := fieldOf ctl; BitVec.ofNat 32 (a.toNat / 2 ^ p % 2 ^ w)
def bfeS (a ctl : Word) : Word :=
  let (p, w) := fieldOf ctl
  let x := a.toNat / 2 ^ p % 2 ^ w
  if w == 0 then 0 else BitVec.ofInt 32 (if x < 2 ^ (w - 1) then (x : Int) else (x : Int) - 2 ^ w)

def mulwS (a b : Word) : BitVec 64 := BitVec.ofInt 64 (a.toInt * b.toInt)
def mulwN (a b : Word) : BitVec 64 := BitVec.ofNat 64 (a.toNat * b.toNat)
def min64 (a b : BitVec 64) : BitVec 64 := if a.toInt ≤ b.toInt then a else b
def max64 (a b : BitVec 64) : BitVec 64 := if a.toInt ≤ b.toInt then b else a

/-- imm11 sign-extended (R120), and SLOI's result. -/
def immS (i : BitVec 11) : Word := i.signExtend 32
def sloi (a : Word) (i : BitVec 11) : Word := (a <<< 11) ||| i.zeroExtend 32
def sext8 (a : Word) : Word := (a.extractLsb' 0 8).signExtend 32
def sext16 (a : Word) : Word := (a.extractLsb' 0 16).signExtend 32
def zext8 (a : Word) : Word := a &&& 0xFF
def zext16 (a : Word) : Word := a &&& 0xFFFF

/-! ### Shared forms -/

/-- A 3R lane instruction of two sources (R75, R80, R107). -/
def lane2 (f : Word → Word → Word) (pb pa : Bool) (b a d : Reg) (s : State) : Out :=
  issue s { srcs := [.v a.toNat 1 pa .a, .v b.toNat 1 pb .b], dsts := [.v d.toNat 1] }
    fun c => c.writeV d.toNat fun l => f (c.v a.toNat .a l) (c.v b.toNat .b l)

/-- A 3R lane instruction of one source. -/
def lane1 (f : Word → Word) (pa : Bool) (a d : Reg) (s : State) : Out :=
  issue s { srcs := [.v a.toNat 1 pa .a], dsts := [.v d.toNat 1] } fun c => c.writeV d.toNat fun l => f (c.v a.toNat .a l)

/-- A 4R lane instruction of three sources, which always wait. -/
def lane3 (f : Word → Word → Word → Word) (x b a d : Reg) (s : State) : Out :=
  issue s { srcs := [.v a.toNat 1 false .none, .v b.toNat 1 false .none, .v x.toNat 1 false .none], dsts := [.v d.toNat 1] }
    fun c => c.writeV d.toNat fun l => f (c.v a.toNat .none l) (c.v b.toNat .none l) (c.v x.toNat .none l)

/-- A 4R lane instruction of two sources. -/
def lane3b (f : Word → Word → Word) (b a d : Reg) (s : State) : Out :=
  issue s { srcs := [.v a.toNat 1 false .none, .v b.toNat 1 false .none], dsts := [.v d.toNat 1] }
    fun c => c.writeV d.toNat fun l => f (c.v a.toNat .none l) (c.v b.toNat .none l)

/-- An I-format lane instruction. -/
def laneI (f : Word → Word) (pa : Bool) (a d : Reg) (s : State) : Out :=
  issue s { srcs := [.v a.toNat 1 pa .none], dsts := [.v d.toNat 1] } fun c => c.writeV d.toNat fun l => f (c.v a.toNat .none l)

/-- A lane instruction that writes a constant. -/
def lane0 (x : Word) (d : Reg) (s : State) : Out :=
  issue s { dsts := [.v d.toNat 1] } fun c => c.writeV d.toNat fun _ => x

/-- A compare of two lanes' words into a predicate (R115, R141). -/
def laneK (f : Word → Word → Bool) (pb pa : Bool) (b a : Reg) (d : KReg) (s : State) : Out :=
  issue s { srcs := [.v a.toNat 1 pa .a, .v b.toNat 1 pb .b] }
    fun c => c.writeK d.toNat fun l => f (c.v a.toNat .a l) (c.v b.toNat .b l)

/-- SEL (R116): n is fn[3]. -/
def laneSel (n : Bool) (p : KReg) (pb pa : Bool) (b a d : Reg) (s : State) : Out :=
  issue s { srcs := [.v a.toNat 1 pa .a, .v b.toNat 1 pb .b, .k p.toNat], dsts := [.v d.toNat 1] }
    fun c => c.writeV d.toNat fun l => if c.g.kAt p.toNat l != n then c.v a.toNat .a l else c.v b.toNat .b l

/-- Pair operations (R119): both sources pairs; the count single; both sources single. -/
def pair2 (wf : Bool) (f : BitVec 64 → BitVec 64 → BitVec 64) (pb pa : Bool) (b a d : Reg) (s : State) : Out :=
  issue s { wf := wf, srcs := [.v a.toNat 2 pa .a, .v b.toNat 2 pb .b], dsts := [.v d.toNat 2] }
    fun c => c.writeV2 d.toNat fun l => f (c.v2 a.toNat .a l) (c.v2 b.toNat .b l)
def pairShift (wf : Bool) (f : BitVec 64 → Nat → BitVec 64) (pb pa : Bool) (b a d : Reg) (s : State) : Out :=
  issue s { wf := wf, srcs := [.v a.toNat 2 pa .a, .v b.toNat 1 pb .b], dsts := [.v d.toNat 2] }
    fun c => c.writeV2 d.toNat fun l => f (c.v2 a.toNat .a l) (c.v b.toNat .b l).toNat
def pairMul (wf : Bool) (f : Word → Word → BitVec 64) (pb pa : Bool) (b a d : Reg) (s : State) : Out :=
  issue s { wf := wf, srcs := [.v a.toNat 1 pa .a, .v b.toNat 1 pb .b], dsts := [.v d.toNat 2] }
    fun c => c.writeV2 d.toNat fun l => f (c.v a.toNat .a l) (c.v b.toNat .b l)

/-- The short forms (R81, R82): vd is also the first source; with the flag the second operand is imm5, extended. -/
def shortOp (f : Word → Word → Word) (ext : BitVec 5 → Word) (i : Bool) (x d : BitVec 5) (s : State) : Out :=
  let srcs : List Src := if i then [.v d.toNat 1 false .none] else [.v d.toNat 1 false .none, .v x.toNat 1 false .none]
  issue s { srcs := srcs, dsts := [.v d.toNat 1] }
    fun c => c.writeV d.toNat fun l => f (c.v d.toNat .none l) (if i then ext x else c.v x.toNat .none l)

/-- Uniform forms (R124, R125): executed once, whatever the mask. -/
def uni2 (f : Word → Word → Word) (pb pa : Bool) (b a d : Reg) (s : State) : Out :=
  issue s { srcs := [.s a.toNat 1 pa, .s b.toNat 1 pb], dsts := [.s d.toNat 1] }
    fun c => c.writeS d.toNat (f (c.sv a.toNat) (c.sv b.toNat))
def uni1 (f : Word → Word) (pa : Bool) (a d : Reg) (s : State) : Out :=
  issue s { srcs := [.s a.toNat 1 pa], dsts := [.s d.toNat 1] } fun c => c.writeS d.toNat (f (c.sv a.toNat))
def uni3 (f : Word → Word → Word → Word) (x b a d : Reg) (s : State) : Out :=
  issue s { srcs := [.s a.toNat 1 false, .s b.toNat 1 false, .s x.toNat 1 false], dsts := [.s d.toNat 1] }
    fun c => c.writeS d.toNat (f (c.sv a.toNat) (c.sv b.toNat) (c.sv x.toNat))

/-! ### Meanings -/

/-- IADD (R112). -/
def execIadd (pb pa : Bool) (b a d : Reg) (s : State) : Out := lane2 (· + ·) pb pa b a d s

/-- ISUB (R112). -/
def execIsub (pb pa : Bool) (b a d : Reg) (s : State) : Out := lane2 (· - ·) pb pa b a d s

/-- IMUL (R112). -/
def execImul (pb pa : Bool) (b a d : Reg) (s : State) : Out := lane2 (· * ·) pb pa b a d s

/-- IMULH_I32 (R112). -/
def execImulhI32 (pb pa : Bool) (b a d : Reg) (s : State) : Out := lane2 iMulhS pb pa b a d s

/-- IMULH_N32 (R112). -/
def execImulhN32 (pb pa : Bool) (b a d : Reg) (s : State) : Out := lane2 iMulhN pb pa b a d s

/-- IMIN_I32 (R112). -/
def execIminI32 (pb pa : Bool) (b a d : Reg) (s : State) : Out := lane2 iMinS pb pa b a d s

/-- IMIN_N32 (R112). -/
def execIminN32 (pb pa : Bool) (b a d : Reg) (s : State) : Out := lane2 iMinN pb pa b a d s

/-- IMAX_I32 (R112). -/
def execImaxI32 (pb pa : Bool) (b a d : Reg) (s : State) : Out := lane2 iMaxS pb pa b a d s

/-- IMAX_N32 (R112). -/
def execImaxN32 (pb pa : Bool) (b a d : Reg) (s : State) : Out := lane2 iMaxN pb pa b a d s

/-- IABS_I32 (R112). -/
def execIabsI32 (pa : Bool) (a d : Reg) (s : State) : Out := lane1 iAbs pa a d s

/-- IADDS_I32 (R112). -/
def execIaddsI32 (pb pa : Bool) (b a d : Reg) (s : State) : Out := lane2 iAddS pb pa b a d s

/-- ISUBS_I32 (R112). -/
def execIsubsI32 (pb pa : Bool) (b a d : Reg) (s : State) : Out := lane2 iSubS pb pa b a d s

/-- IADDS_N32 (R112). -/
def execIaddsN32 (pb pa : Bool) (b a d : Reg) (s : State) : Out := lane2 iAddN pb pa b a d s

/-- ISUBS_N32 (R112). -/
def execIsubsN32 (pb pa : Bool) (b a d : Reg) (s : State) : Out := lane2 iSubN pb pa b a d s

/-- AND (R113). -/
def execAnd (pb pa : Bool) (b a d : Reg) (s : State) : Out := lane2 (· &&& ·) pb pa b a d s

/-- OR (R113). -/
def execOr (pb pa : Bool) (b a d : Reg) (s : State) : Out := lane2 (· ||| ·) pb pa b a d s

/-- XOR (R113). -/
def execXor (pb pa : Bool) (b a d : Reg) (s : State) : Out := lane2 (· ^^^ ·) pb pa b a d s

/-- ANDN (R113). -/
def execAndn (pb pa : Bool) (b a d : Reg) (s : State) : Out := lane2 (fun a b => a &&& ~~~b) pb pa b a d s

/-- SHL (R113). -/
def execShl (pb pa : Bool) (b a d : Reg) (s : State) : Out := lane2 (fun a b => shl a b.toNat) pb pa b a d s

/-- SHR (R113). -/
def execShr (pb pa : Bool) (b a d : Reg) (s : State) : Out := lane2 (fun a b => shr a b.toNat) pb pa b a d s

/-- SAR (R113). -/
def execSar (pb pa : Bool) (b a d : Reg) (s : State) : Out := lane2 (fun a b => sar a b.toNat) pb pa b a d s

/-- ROL (R113). -/
def execRol (pb pa : Bool) (b a d : Reg) (s : State) : Out := lane2 rol pb pa b a d s

/-- POPC (R113). -/
def execPopc (pa : Bool) (a d : Reg) (s : State) : Out := lane1 popc pa a d s

/-- CLZ (R113). -/
def execClz (pa : Bool) (a d : Reg) (s : State) : Out := lane1 clz pa a d s

/-- BREV (R113). -/
def execBrev (pa : Bool) (a d : Reg) (s : State) : Out := lane1 brev pa a d s

/-- ICMP_EQ (R115). -/
def execIcmpEq (pb pa : Bool) (b a : Reg) (d : KReg) (s : State) : Out := laneK (· == ·) pb pa b a d s

/-- ICMP_NE (R115). -/
def execIcmpNe (pb pa : Bool) (b a : Reg) (d : KReg) (s : State) : Out := laneK (· != ·) pb pa b a d s

/-- ICMP_LT_I32 (R115). -/
def execIcmpLtI32 (pb pa : Bool) (b a : Reg) (d : KReg) (s : State) : Out := laneK sltS pb pa b a d s

/-- ICMP_LE_I32 (R115). -/
def execIcmpLeI32 (pb pa : Bool) (b a : Reg) (d : KReg) (s : State) : Out := laneK sleS pb pa b a d s

/-- ICMP_LT_N32 (R115). -/
def execIcmpLtN32 (pb pa : Bool) (b a : Reg) (d : KReg) (s : State) : Out := laneK sltN pb pa b a d s

/-- ICMP_LE_N32 (R115). -/
def execIcmpLeN32 (pb pa : Bool) (b a : Reg) (d : KReg) (s : State) : Out := laneK sleN pb pa b a d s

/-- SEL (R116). -/
def execSel (p : KReg) (pb pa : Bool) (b a d : Reg) (s : State) : Out := laneSel false p pb pa b a d s

/-- SEL_N (R116). -/
def execSelN (p : KReg) (pb pa : Bool) (b a d : Reg) (s : State) : Out := laneSel true p pb pa b a d s

/-- IMAD (R117). -/
def execImad (c b a d : Reg) (s : State) : Out := lane3 (fun a b c => a * b + c) c b a d s

/-- BFI (R118). -/
def execBfi (c b a d : Reg) (s : State) : Out := lane3 bfi c b a d s

/-- BFE_N32 (R118). -/
def execBfeN32 (b a d : Reg) (s : State) : Out := lane3b bfeN b a d s

/-- BFE_I32 (R118). -/
def execBfeI32 (b a d : Reg) (s : State) : Out := lane3b bfeS b a d s

/-- IADD_I64 (R119). -/
def execIaddI64 (pb pa : Bool) (b a d : Reg) (s : State) : Out := pair2 (even a && even b && even d) (· + ·) pb pa b a d s

/-- ISUB_I64 (R119). -/
def execIsubI64 (pb pa : Bool) (b a d : Reg) (s : State) : Out := pair2 (even a && even b && even d) (· - ·) pb pa b a d s

/-- SHL_I64 (R119). -/
def execShlI64 (pb pa : Bool) (b a d : Reg) (s : State) : Out := pairShift (even a && even d) shl pb pa b a d s

/-- SHR_N64 (R119). -/
def execShrN64 (pb pa : Bool) (b a d : Reg) (s : State) : Out := pairShift (even a && even d) shr pb pa b a d s

/-- SAR_I64 (R119). -/
def execSarI64 (pb pa : Bool) (b a d : Reg) (s : State) : Out := pairShift (even a && even d) sar pb pa b a d s

/-- IMULW_I32 (R119). -/
def execImulwI32 (pb pa : Bool) (b a d : Reg) (s : State) : Out := pairMul (even d) mulwS pb pa b a d s

/-- IMULW_N32 (R119). -/
def execImulwN32 (pb pa : Bool) (b a d : Reg) (s : State) : Out := pairMul (even d) mulwN pb pa b a d s

/-- IMIN_I64 (R119). -/
def execIminI64 (pb pa : Bool) (b a d : Reg) (s : State) : Out := pair2 (even a && even b && even d) min64 pb pa b a d s

/-- IMAX_I64 (R119). -/
def execImaxI64 (pb pa : Bool) (b a d : Reg) (s : State) : Out := pair2 (even a && even b && even d) max64 pb pa b a d s

/-- IADDI (R120). -/
def execIaddi (imm : BitVec 11) (pa : Bool) (a d : Reg) (s : State) : Out := laneI (· + immS imm) pa a d s

/-- ANDI (R120). -/
def execAndi (imm : BitVec 11) (pa : Bool) (a d : Reg) (s : State) : Out := laneI (· &&& immS imm) pa a d s

/-- ORI (R120). -/
def execOri (imm : BitVec 11) (pa : Bool) (a d : Reg) (s : State) : Out := laneI (· ||| immS imm) pa a d s

/-- XORI (R120). -/
def execXori (imm : BitVec 11) (pa : Bool) (a d : Reg) (s : State) : Out := laneI (· ^^^ immS imm) pa a d s

/-- SHLI (R114). -/
def execShli (n : BitVec 5) (pa : Bool) (a d : Reg) (s : State) : Out := laneI (shl · n.toNat) pa a d s

/-- SHRI (R114). -/
def execShri (n : BitVec 5) (pa : Bool) (a d : Reg) (s : State) : Out := laneI (shr · n.toNat) pa a d s

/-- SARI (R114). -/
def execSari (n : BitVec 5) (pa : Bool) (a d : Reg) (s : State) : Out := laneI (sar · n.toNat) pa a d s

/-- MOVI (R120). -/
def execMovi (imm : BitVec 11) (d : Reg) (s : State) : Out := lane0 (immS imm) d s

/-- SLOI (R120). -/
def execSloi (imm : BitVec 11) (pa : Bool) (a d : Reg) (s : State) : Out := laneI (sloi · imm) pa a d s

/-- IMULI (R120). -/
def execImuli (imm : BitVec 11) (pa : Bool) (a d : Reg) (s : State) : Out := laneI (· * immS imm) pa a d s

/-- MOV (R122). -/
def execMov (pa : Bool) (a d : Reg) (s : State) : Out := lane1 id pa a d s

/-- SEXT_I8 (R122). -/
def execSextI8 (pa : Bool) (a d : Reg) (s : State) : Out := lane1 sext8 pa a d s

/-- SEXT_I16 (R122). -/
def execSextI16 (pa : Bool) (a d : Reg) (s : State) : Out := lane1 sext16 pa a d s

/-- ZEXT_N8 (R122). -/
def execZextN8 (pa : Bool) (a d : Reg) (s : State) : Out := lane1 zext8 pa a d s

/-- ZEXT_N16 (R122). -/
def execZextN16 (pa : Bool) (a d : Reg) (s : State) : Out := lane1 zext16 pa a d s

/-- SIADD (R124). -/
def execSiadd (pb pa : Bool) (b a d : Reg) (s : State) : Out := uni2 (· + ·) pb pa b a d s

/-- SISUB (R124). -/
def execSisub (pb pa : Bool) (b a d : Reg) (s : State) : Out := uni2 (· - ·) pb pa b a d s

/-- SIMUL (R124). -/
def execSimul (pb pa : Bool) (b a d : Reg) (s : State) : Out := uni2 (· * ·) pb pa b a d s

/-- SIMULH_I32 (R124). -/
def execSimulhI32 (pb pa : Bool) (b a d : Reg) (s : State) : Out := uni2 iMulhS pb pa b a d s

/-- SIMULH_N32 (R124). -/
def execSimulhN32 (pb pa : Bool) (b a d : Reg) (s : State) : Out := uni2 iMulhN pb pa b a d s

/-- SIMIN_I32 (R124). -/
def execSiminI32 (pb pa : Bool) (b a d : Reg) (s : State) : Out := uni2 iMinS pb pa b a d s

/-- SIMIN_N32 (R124). -/
def execSiminN32 (pb pa : Bool) (b a d : Reg) (s : State) : Out := uni2 iMinN pb pa b a d s

/-- SIMAX_I32 (R124). -/
def execSimaxI32 (pb pa : Bool) (b a d : Reg) (s : State) : Out := uni2 iMaxS pb pa b a d s

/-- SIMAX_N32 (R124). -/
def execSimaxN32 (pb pa : Bool) (b a d : Reg) (s : State) : Out := uni2 iMaxN pb pa b a d s

/-- SIABS_I32 (R124). -/
def execSiabsI32 (pa : Bool) (a d : Reg) (s : State) : Out := uni1 iAbs pa a d s

/-- SIADDS_I32 (R124). -/
def execSiaddsI32 (pb pa : Bool) (b a d : Reg) (s : State) : Out := uni2 iAddS pb pa b a d s

/-- SISUBS_I32 (R124). -/
def execSisubsI32 (pb pa : Bool) (b a d : Reg) (s : State) : Out := uni2 iSubS pb pa b a d s

/-- SIADDS_N32 (R124). -/
def execSiaddsN32 (pb pa : Bool) (b a d : Reg) (s : State) : Out := uni2 iAddN pb pa b a d s

/-- SISUBS_N32 (R124). -/
def execSisubsN32 (pb pa : Bool) (b a d : Reg) (s : State) : Out := uni2 iSubN pb pa b a d s

/-- SAND (R124). -/
def execSand (pb pa : Bool) (b a d : Reg) (s : State) : Out := uni2 (· &&& ·) pb pa b a d s

/-- SOR (R124). -/
def execSor (pb pa : Bool) (b a d : Reg) (s : State) : Out := uni2 (· ||| ·) pb pa b a d s

/-- SXOR (R124). -/
def execSxor (pb pa : Bool) (b a d : Reg) (s : State) : Out := uni2 (· ^^^ ·) pb pa b a d s

/-- SANDN (R124). -/
def execSandn (pb pa : Bool) (b a d : Reg) (s : State) : Out := uni2 (fun a b => a &&& ~~~b) pb pa b a d s

/-- SSHL (R124). -/
def execSshl (pb pa : Bool) (b a d : Reg) (s : State) : Out := uni2 (fun a b => shl a b.toNat) pb pa b a d s

/-- SSHR (R124). -/
def execSshr (pb pa : Bool) (b a d : Reg) (s : State) : Out := uni2 (fun a b => shr a b.toNat) pb pa b a d s

/-- SSAR (R124). -/
def execSsar (pb pa : Bool) (b a d : Reg) (s : State) : Out := uni2 (fun a b => sar a b.toNat) pb pa b a d s

/-- SROL (R124). -/
def execSrol (pb pa : Bool) (b a d : Reg) (s : State) : Out := uni2 rol pb pa b a d s

/-- SPOPC (R124). -/
def execSpopc (pa : Bool) (a d : Reg) (s : State) : Out := uni1 popc pa a d s

/-- SCLZ (R124). -/
def execSclz (pa : Bool) (a d : Reg) (s : State) : Out := uni1 clz pa a d s

/-- SBREV (R124). -/
def execSbrev (pa : Bool) (a d : Reg) (s : State) : Out := uni1 brev pa a d s

/-- SCMP_EQ (R124). -/
def execScmpEq (pb pa : Bool) (b a d : Reg) (s : State) : Out := uni2 (fun a b => if (a == b) then 1 else 0) pb pa b a d s

/-- SCMP_NE (R124). -/
def execScmpNe (pb pa : Bool) (b a d : Reg) (s : State) : Out := uni2 (fun a b => if (a != b) then 1 else 0) pb pa b a d s

/-- SCMP_LT_I32 (R124). -/
def execScmpLtI32 (pb pa : Bool) (b a d : Reg) (s : State) : Out := uni2 (fun a b => if sltS a b then 1 else 0) pb pa b a d s

/-- SCMP_LE_I32 (R124). -/
def execScmpLeI32 (pb pa : Bool) (b a d : Reg) (s : State) : Out := uni2 (fun a b => if sleS a b then 1 else 0) pb pa b a d s

/-- SCMP_LT_N32 (R124). -/
def execScmpLtN32 (pb pa : Bool) (b a d : Reg) (s : State) : Out := uni2 (fun a b => if sltN a b then 1 else 0) pb pa b a d s

/-- SCMP_LE_N32 (R124). -/
def execScmpLeN32 (pb pa : Bool) (b a d : Reg) (s : State) : Out := uni2 (fun a b => if sleN a b then 1 else 0) pb pa b a d s

/-- SIADDI (R124). -/
def execSiaddi (imm : BitVec 11) (pa : Bool) (a d : Reg) (s : State) : Out := uni1 (· + immS imm) pa a d s

/-- SMOVI (R124). -/
def execSmovi (imm : BitVec 11) (d : Reg) (s : State) : Out := issue s { dsts := [.s d.toNat 1] } fun c => c.writeS d.toNat (immS imm)

/-- SSLOI (R124). -/
def execSsloi (imm : BitVec 11) (pa : Bool) (a d : Reg) (s : State) : Out := uni1 (sloi · imm) pa a d s

/-- SIMAD (R124). -/
def execSimad (c b a d : Reg) (s : State) : Out := uni3 (fun a b c => a * b + c) c b a d s

/-- IADD_SHORT (R81). -/
def execIaddShort (i : Bool) (x d : BitVec 5) (s : State) : Out := shortOp (· + ·) (BitVec.signExtend 32 ·) i x d s

/-- ISUB_SHORT (R81). -/
def execIsubShort (i : Bool) (x d : BitVec 5) (s : State) : Out := shortOp (· - ·) (BitVec.signExtend 32 ·) i x d s

/-- IMUL_SHORT (R81). -/
def execImulShort (i : Bool) (x d : BitVec 5) (s : State) : Out := shortOp (· * ·) (BitVec.signExtend 32 ·) i x d s

/-- AND_SHORT (R81). -/
def execAndShort (i : Bool) (x d : BitVec 5) (s : State) : Out := shortOp (· &&& ·) (BitVec.signExtend 32 ·) i x d s

/-- OR_SHORT (R81). -/
def execOrShort (i : Bool) (x d : BitVec 5) (s : State) : Out := shortOp (· ||| ·) (BitVec.signExtend 32 ·) i x d s

/-- XOR_SHORT (R81). -/
def execXorShort (i : Bool) (x d : BitVec 5) (s : State) : Out := shortOp (· ^^^ ·) (BitVec.signExtend 32 ·) i x d s

/-- SHL_SHORT (R81). -/
def execShlShort (i : Bool) (x d : BitVec 5) (s : State) : Out := shortOp (fun a b => shl a b.toNat) (BitVec.zeroExtend 32 ·) i x d s

/-- SHR_SHORT (R81). -/
def execShrShort (i : Bool) (x d : BitVec 5) (s : State) : Out := shortOp (fun a b => shr a b.toNat) (BitVec.zeroExtend 32 ·) i x d s

/-- SAR_SHORT (R81). -/
def execSarShort (i : Bool) (x d : BitVec 5) (s : State) : Out := shortOp (fun a b => sar a b.toNat) (BitVec.zeroExtend 32 ·) i x d s

/-- MOV_SHORT (R82). -/
def execMovShort (x d : BitVec 5) (s : State) : Out := issue s { srcs := [.v x.toNat 1 false .none], dsts := [.v d.toNat 1] }
    fun c => c.writeV d.toNat fun l => c.v x.toNat .none l

/-- MOVI_SHORT (R82). -/
def execMoviShort (x d : BitVec 5) (s : State) : Out := issue s { dsts := [.v d.toNat 1] } fun c => c.writeV d.toNat fun _ => x.signExtend 32

/-- IMIN_SHORT (R81). -/
def execIminShort (i : Bool) (x d : BitVec 5) (s : State) : Out := shortOp iMinS (BitVec.signExtend 32 ·) i x d s

/-- IMAX_SHORT (R81). -/
def execImaxShort (i : Bool) (x d : BitVec 5) (s : State) : Out := shortOp iMaxS (BitVec.signExtend 32 ·) i x d s

end Sys2Proof.Machine
end

