-- ==== Sys2Proof/Machine/Access.lean ====
section
/-! DEFINITION. The issue side of a memory access: requests, what later instructions wait for, L1 hits, and the shared forms of loads,
stores, atomics and scratchpad accesses (11). What a request does at its home slice stands in MemEvents.lean. -/

namespace Sys2Proof.Machine

/-! ### Requests and what waits for them -/

/-- Whether an access has been neither accepted nor rejected with its trap taken (R159, R174). -/
def Req.isOpen (r : Req) : Bool :=
  match r.stage with
  | .sent => true
  | .page => true
  | .rejected _ _ => true
  | _ => false

/-- Whether an access has yet to be performed at its home slice. -/
def Req.inFlight (r : Req) : Bool :=
  match r.stage with
  | .sent => true
  | .page => true
  | _ => false

/-- Whether an acquire is not yet complete: its value has not been read, or has not returned, after which the L1 holds no line from before
it (R201, R234). -/
def Req.unread (r : Req) : Bool :=
  match r.stage with
  | .rejected _ _ => false
  | _ => true

def FlueOp.touches (o : FlueOp) (m : Mask) : Bool := m.getLsbD o.lane

/-- Whether a flue operation is an alighting: its store counts from its issue (R292). -/
def FlueOp.isAlight (o : FlueOp) : Bool := match o.kind with | .alight _ => true | _ => false

/-- Whether some access of the lanes, of those numbered below n, has yet to be accepted or rejected with its trap taken. -/
def State.openBefore (s : State) (gid : Nat) (m : Mask) (n : Nat) : Bool :=
  (s.reqs.any fun (k, r) => decide (k < n) && r.gang == gid && r.touches m && r.isOpen) ||
  (s.flueOps.any fun (k, o) => decide (k < n) && o.gang == gid && o.touches m && (o.isAlight || o.fault.isSome)) ||
  (s.drains.any fun (k, d) => decide (k < n) && d.gang == gid && d.mask &&& m != 0 && d.barrier.isNone) ||
  (s.tileOps.any fun (k, t) => decide (k < n) && t.gang == gid && t.mask &&& m != 0)

/-- Whether some access of the lanes has yet to be accepted or rejected: what a release, an sc fence and a barrier arrival wait for (R174,
R236, R241). -/
def State.openFor (s : State) (gid : Nat) (m : Mask) : Bool := s.openBefore gid m s.nextId

/-- What EXIT waits for: also every flue operation of the lanes (R159, R283). -/
def State.outstanding (s : State) (gid : Nat) (m : Mask) : Bool :=
  s.openFor gid m || s.flueOps.any fun (_, o) => o.gang == gid && o.touches m

/-- Whether a rejection of the lanes waits for its trap: no release, fence, barrier arrival or EXIT completes before (R174). -/
def State.rejected (s : State) (gid : Nat) (m : Mask) : Bool :=
  (s.reqs.any fun (_, r) => r.gang == gid && r.touches m && (match r.stage with | .rejected _ _ => true | _ => false)) ||
  (s.flueOps.any fun (_, o) => o.gang == gid && o.touches m && o.fault.isSome) ||
  (s.drains.any fun (_, d) => d.gang == gid && d.mask &&& m != 0 && d.barrier.isNone && d.fault.isSome) ||
  (s.tileOps.any fun (_, t) => t.gang == gid && t.mask &&& m != 0 && t.fault.isSome)

/-- Whether an acquire of the lanes, of those numbered below n, is outstanding: no later access of theirs to memory is made (R234, R242,
R244). -/
def State.acquiringBefore (s : State) (gid : Nat) (m : Mask) (n : Nat) : Bool :=
  (s.reqs.any fun (k, r) => decide (k < n) && r.gang == gid && r.acq && r.touches m && r.unread) ||
  (s.flueOps.any fun (k, o) => decide (k < n) && o.gang == gid && o.acq && o.touches m) ||
  (s.tileOps.any fun (k, t) => decide (k < n) && t.gang == gid && t.mask &&& m != 0 && t.fault.isNone && s.padAwaits t false)

def State.acquiring (s : State) (gid : Nat) (m : Mask) : Bool := s.acquiringBefore gid m s.nextId

/-- Whether an acquire of cluster scope or above of some of the lanes is outstanding, after which the L1 is invalidated (R201, R242, R244). -/
def State.invalidating (s : State) (gid : Nat) (m : Mask) : Bool :=
  (s.reqs.any fun (_, r) => r.gang == gid && r.acq && r.touches m && r.unread && decide (3 ≤ r.level)) ||
  (s.flueOps.any fun (_, o) => o.gang == gid && o.acq && o.touches m) ||
  (s.tileOps.any fun (_, t) => t.gang == gid && t.mask &&& m != 0 && t.fault.isNone && s.padAwaits t true)

/-- Whether the value of an earlier read of the lanes has yet to come: what an acquire part of a fence waits for (R241). -/
def State.readsOpen (s : State) (gid : Nat) (m : Mask) : Bool :=
  (s.reqs.any fun (_, r) => r.gang == gid && r.touches m && (match r.acc with
    | .load _ _ => true
    | .loadCap _ => true
    | .atomic _ _ _ returns => returns
    | .wait _ _ => true
    | _ => false)) ||
  (s.tileOps.any fun (_, t) => t.gang == gid && t.mask &&& m != 0) ||
  (s.flueOps.any fun (_, o) => o.gang == gid && o.acq && o.touches m)

/-- The lanes' fences with release have been followed by a strong store or atomic (R236). -/
def Gang.relDone (g : Gang) (m : Mask) : Gang := { g with rels := g.rels.filter fun x => !m.getLsbD x.1 }

/-- Puts an access in flight. -/
def State.send (s : State) (r : Req) : State :=
  { s with
    reqs := s.reqs ++ [(s.nextId, r)]
    nextId := s.nextId + 1
    gangs := if r.strongWrite then modify s.gangs r.gang fun g => g.relDone r.lanes else s.gangs }

/-- The accesses that a write of some lanes waits for: those before the last fence with release of any of them (R241). -/
def Gang.fenceOf (g : Gang) (m : Mask) : Nat := (lanesOf m).foldl (fun n l => max n (lookD 0 g.fences l)) 0

/-- The scope at which the last fence with release of some lanes makes their next strong store or atomic a release (R236). -/
def Gang.relOf (g : Gang) (m : Mask) : Nat := (lanesOf m).foldl (fun n l => max n (lookD 0 g.rels l)) 0

/-- The request that an instruction makes, with the seat and context generation that its reply goes to (R48). A release waits for every
earlier access of its lanes (R236), and a write after a fence with release for those before the fence (R241). -/
def Ctx.req (c : Ctx) (inst lane : Nat) (acc : Access) (addr size : Nat) (cap : Cap) (dests : List Dest) : Req :=
  let mine := if lane < 32 then bit lane else c.active
  { inst := inst, core := c.core, part := c.pid, gang := c.gid, seat := c.g.seat, lane := lane, mask := if lane < 32 then 0 else c.active,
    acc := acc, addr := addr, size := size, cap := cap, dests := dests, scope := c.pfx.scope.toNat, acq := c.pfx.kind == 1 || c.pfx.kind == 3,
    pc := c.pc, word := c.word, pfx := c.pfxWord, issued := c.g.ticksWith c.active, gen := lookD 0 (c.s.core c.core).ctxgen c.g.seat,
    stage := .sent
    wall := if !acc.writes then 0 else if c.pfx.kind == 2 || c.pfx.kind == 3 then c.s.nextId else c.g.fenceOf mine
    vis := if acc.isAtomic || (acc.writes && c.pfx.scope != 0) then c.g.relOf mine else 0 }

/-- Whether the instruction must wait before it touches memory: for an earlier acquire of its lanes (R234, R236). -/
def Ctx.mustWait (c : Ctx) : Bool := c.s.acquiring c.gid c.live

/-- Whether a load must wait: also for an acquire by any lane of its split that will invalidate the L1 (R201). -/
def Ctx.loadWait (c : Ctx) : Bool := c.mustWait || c.s.invalidating c.gid c.active

/-- Whether an instruction that writes the scratchpad as it issues must wait: as a release for the earlier accesses of its lanes, and for
those before a fence with release (R236, R241). -/
def Ctx.padWait (c : Ctx) : Bool :=
  c.mustWait || c.s.openBefore c.gid c.live (if c.pfx.kind == 2 || c.pfx.kind == 3 then c.s.nextId else c.g.fenceOf c.live)

/-! ### L1 (R201) -/

/-- The line of a plain load that hits: same line, colour and generation, no access of the core to the line in flight, an alighting's store
counting from its issue (R235, R292). -/
def State.l1Hit (s : State) (core : Nat) (cap : Cap) (addr : Nat) : Option L1Line :=
  if (s.reqs.any fun (_, r) => r.core == core && r.addr / 128 == addr / 128 && r.acc.reads && (r.inFlight || r.stage == .waiting)) ||
      s.flueOps.any (fun (_, o) => o.core == core && o.isAlight && o.fault.isNone && o.addr / 128 == addr / 128) then none
  else (s.core core).l1.find? fun x => x.line == addr / 128 && x.colour == cap.colour && x.gen == cap.gen

/-- What an acquire that reads the scratchpad does to L1 at once. -/
def Ctx.acquired (c : Ctx) (s : State) : State :=
  if (c.pfx.kind == 1 || c.pfx.kind == 3) && (c.pfx.scope == 0 || 3 ≤ c.pfx.scope.toNat) then s.clearL1 c.core else s

/-- Counts the line accesses of a plain load: hits, misses, and misses of recently evicted lines, which also raise the damper's score (R335,
R392). -/
def Ctx.countLines (c : Ctx) (s : State) (xs : List (Cap × Nat)) : State :=
  let line := fun (x : Cap × Nat) => x.2 / 128
  let xs := xs.foldl (fun r x => if r.any fun y => line y == line x then r else r ++ [x]) []
  let miss := xs.filter fun x => c.pfx.scope != 0 || (c.s.l1Hit c.core x.1 x.2).isNone
  let lost := (miss.filter fun x => (c.s.core c.core).victims.contains (line x)).length
  let s := ((s.count c.core c.pid 7 (xs.length - miss.length)).count c.core c.pid 8 miss.length).count c.core c.pid 9 lost
  let k := s.core c.core
  s.setCore c.core { k with score := min 2047 (k.score + lost) }

/-- Extends a loaded byte run to register words (R218). -/
def loadWords (signed : Bool) (size : Nat) (bs : List Byte) : List Word :=
  if size ≤ 4 then
    let x := leNat bs
    [if signed && 2 ^ (8 * size - 1) ≤ x then BitVec.ofInt 32 ((x : Int) - 2 ^ (8 * size)) else BitVec.ofNat 32 x]
  else wordsOf (size / 4) bs

/-- What an L1 line answers to a load: its bytes, or cause 20 where one of its words that the load reads is poisoned (R213). -/
def L1Line.answer (x : L1Line) (signed : Bool) (addr size : Nat) : Stage :=
  if (unitsOf 8 (addr % 128) size).any x.bad.getLsbD then .rejected 20 addr
  else .replied (loadWords signed size ((x.data.drop (addr % 128)).take size)) false

/-! ### Capability forms (R218) -/

/-- The capability a lane accesses through: a c register, or its quad (R173). -/
def Ctx.laneCap (c : Ctx) (quadForm : Bool) (base : CReg) (lane : Nat) : Cap :=
  if quadForm then c.g.quadAt (c.vk (4 * base.toNat)) lane else c.cv base.toNat

/-- What holds a lane's capability, as a source: its quad, under the offset's policy (R173), or a c register. -/
def quadSrc (quadForm : Bool) (base : CReg) (trap : Bool) : List Src :=
  if quadForm then [.v (4 * base.toNat) 4 trap .none] else [.c base.toNat]

/-- The offset in a lane: zero-extended, plus the scaled displacement (R171). -/
def Ctx.off (c : Ctx) (o : Reg) (disp : Int) (lane : Nat) : Int := (c.v o.toNat .none lane).toNat + disp

/-- Splits the live lanes into those that pass a check and the faults of the others. -/
def Ctx.checkLanes (c : Ctx) (chk : Nat → Option (Nat × Nat)) : List Nat × List LaneFault :=
  let ls := lanesOf c.live
  (ls.filter fun l => (chk l).isNone,
    ls.filterMap fun l => (chk l).map fun (cause, addr) => { lane := l, cause := cause, addr := addr, detail := 0 })

/-- Sends one request per lane, in ascending order, after emptying its destinations in the lane (R57). -/
def Ctx.sendLanes (c : Ctx) (s : State) (ls : List Nat) (keys : List Nat) (mk : Nat → Nat → Req) : State :=
  let (s, inst) := s.newId
  let s := { s with gangs := modify s.gangs c.gid fun g => keys.foldl (fun g k => g.emptyV k (maskOf ls.contains)) g }
  ls.foldl (fun s l => s.send (mk inst l)) s

/-- A load (R218, R220): keys are the destination registers' keys. A load to the host window parks the split (R202, R41). -/
def Ctx.load (c : Ctx) (keys : List Nat) (size : Nat) (acc : Cap → Access) (signed cached : Bool) (cap : Nat → Cap)
    (off : Nat → Int) : Act :=
  if c.loadWait then .stall
  else
    let (ok, faults) := c.checkLanes fun l => check15 (cap l) permR (off l) size size
    let mk := fun inst l =>
      let a := (cap l).at (off l)
      let r := c.req inst l (acc (cap l)) a size (cap l) (keys.map .v)
      match if cached && c.pfx.scope == 0 then c.s.l1Hit c.core (cap l) a else none with
      | some x => { r with stage := x.answer signed a size }
      | none => r
    let s := c.sendLanes c.s ok keys mk
    let s := if cached then c.countLines s (ok.map fun l => (cap l, (cap l).at (off l))) else s
    if ok.any fun l => isHost ((cap l).at (off l)) then .parkNext s .host faults else .done s faults

/-- A store (R218): data gives a lane's bytes. -/
def Ctx.store (c : Ctx) (size : Nat) (data : Nat → List Byte) (cap : Nat → Cap) (off : Nat → Int) : Act :=
  if c.mustWait then .stall
  else
    let (ok, faults) := c.checkLanes fun l => check15 (cap l) permW (off l) size size
    .done (c.sendLanes c.s ok [] fun inst l => c.req inst l (.store (data l)) ((cap l).at (off l)) size (cap l) []) faults

/-- The bytes of n registers of a lane from r, the lowest register first (R218). -/
def Ctx.regBytes (c : Ctx) (r n lane : Nat) : List Byte :=
  (List.range n).flatMap fun i => leBytes 4 (c.v (r + i) .none lane).toNat

/-! ### Atomics (R225 to R227) -/

/-- The new word of atomic operation op (the low four bits of the subop): old x, data y, and for CAS the second word z. -/
def atomNew (op : Nat) (x y z : Word) : Word :=
  match op with
  | 0 => x + y
  | 1 => iMinS x y
  | 2 => iMaxS x y
  | 3 => iMinN x y
  | 4 => iMaxN x y
  | 5 => x &&& y
  | 6 => x ||| y
  | 7 => x ^^^ y
  | 8 => y
  | 9 => if x == y then z else x
  | _ => f32op f32.add 0 x y

/-- The pass that serves a lane: how many lower lanes name the same word (R227). -/
def passAt {α : Type} [BEq α] (ls : List Nat) (addr : Nat → α) (l : Nat) : Nat := (ls.filter fun m => decide (m < l) && addr m == addr l).length

/-- ATOM and RED (R225): the data word is V[b], and for CAS V[b+1] the new value. Every lane's update is in flight from the issue on; those
of one word are made in ascending lane order, pass by pass (R227). -/
def atomic (op : Nat) (returns : Bool) (cap : CReg) (a b : Reg) (s : State) : Out :=
  let n := if op == 9 then 2 else 1
  issue s { wf := op != 9 || even b, srcs := [.v a.toNat 1 false .none, .v b.toNat n false .none, .c cap.toNat],
            dsts := if returns then [.v b.toNat 1] else [] } fun c =>
    if c.mustWait then .stall
    else
      let x := c.cv cap.toNat
      let perm := if returns then permR ||| permW else permW
      let (ok, faults) := c.checkLanes fun l => check15 x perm (c.off a 0 l) 4 4
      let addr := fun l => x.at (c.off a 0 l)
      let keys := if returns then [c.vk b.toNat] else []
      let pass := passAt ok addr
      .done (c.sendLanes c.s ok keys fun inst l =>
        { c.req inst l (.atomic op (c.v b.toNat .none l) (if op == 9 then c.v (b.toNat + 1) .none l else 0) returns) (addr l) 4 x
            (keys.map .v) with pass := pass l, peers := maskOf fun m => ok.contains m && pass m == pass l }) faults

/-! ### Scratchpad and cluster window (R205 to R207, R221, R222, R226) -/

def Ctx.padPlace (c : Ctx) (win : Bool) (off : Int) (size : Nat) : Option (Nat × Nat) := c.s.padPlace c.g.block win off size

/-- The check of a scratchpad access: bounds, then alignment, both with the offset as the address (R214, R221). -/
def Ctx.padCheck (c : Ctx) (win : Bool) (off : Int) (size : Nat) : Option (Nat × Nat) :=
  match c.padPlace win off size with
  | none => some (2, (off % 2 ^ 48).toNat)
  | some _ => if off.toNat % size != 0 then some (16, off.toNat) else none

def Block.padBytes (b : Block) (off n : Nat) : List Byte := readFrom b.pad off n

/-- Writes scratchpad bytes: their tags clear, a poisoned ECC word of 8 bytes that they cover is cured, the full/empty bits stay (R205, R179, R213). -/
def Block.padWrite (b : Block) (off : Nat) (bs : List Byte) : Block :=
  let cured := (unitsOf 8 off bs.length).filter fun u => decide (off ≤ u * 8) && decide (u * 8 + 8 ≤ off + bs.length)
  { b with pad := writeTo b.pad off bs, padTag := clearTags b.padTag (unitsOf 16 off bs.length), padPoison := clearTags b.padPoison cured }

/-- Whether an ECC word read is poisoned (R211, R213). -/
def Block.padPoisoned (b : Block) (off n : Nat) : Bool := (unitsOf 8 off n).any fun u => lookD false b.padPoison u

/-- What a read of scratchpad lines is as an acquire: of cluster scope or above where the prefix says so or where a line was filled through
the cluster window, and then no L1 line from before it is hit (R201, R242). -/
def Ctx.padAcquired (c : Ctx) (s : State) (places : List (Nat × Nat)) : State :=
  if places.any fun x => s.padFarAt x 1 then s.clearL1 c.core else c.acquired s

/-- Whether a write of some lanes to a place in a scratchpad must let an earlier tile load of theirs read it first (R237, R259). -/
def Ctx.padRead (c : Ctx) (m : Mask) (places : List (Nat × Nat)) (size : Nat) : Bool :=
  places.any fun (b, o) => c.s.padUnread c.gid m c.s.nextId b o size

/-- A write of the scratchpad with a SCOPE is the strong store that a fence with release before it makes a release (R236). -/
def Ctx.padStrong (c : Ctx) (s : State) (strong : Bool) : State :=
  if strong then { s with gangs := modify s.gangs c.gid fun g => g.relDone c.live } else s

/-- The update of a scratchpad word by one lane of an atomic: its reply is on the way to the lane's register (R226, R227). -/
def Ctx.padUpdate (c : Ctx) (op : Nat) (win : Bool) (a b : Reg) (inst : Nat) (s : State) (l : Nat) : State :=
  let off := c.off a 0 l
  let (id, o) := (c.padPlace win off 4).getD (0, 0)
  match s.block id with
  | none => s
  | some blk =>
    let x : Word := BitVec.ofNat 32 (leNat (blk.padBytes o 4))
    let y := atomNew op x (c.v b.toNat .none l) (if op == 9 then c.v (b.toNat + 1) .none l else 0)
    let bad := blk.padPoisoned o 4
    (if bad then s else s.setBlock id (blk.padWrite o (leBytes 4 y.toNat))).send
      { c.req inst l .onCore o 4 Cap.null [.v (c.vk b.toNat)] with
        acq := false, stage := if bad then .rejected 20 off.toNat else .replied [x] false }

/-- Whether the instruction that the split issues next is one that it has half done (R227). -/
def State.resumes (s : State) : Bool := (s.ctx.map fun c => c.sp.only != 0).getD false

/-- A scratchpad atomic (R226): once every line it names is full, its lanes' updates, in passes (R227). A step serves one pass, the lowest of
the lanes left that name each word; the split stays at the instruction for the others, which no register or line holds up again (log 13). -/
def atomicPad (op : Nat) (win : Bool) (a b : Reg) (s : State) : Out :=
  let n := if op == 9 then 2 else 1
  issue s { wf := op != 9 || even b, srcs := if s.resumes then [] else [.v a.toNat 1 false .none, .v b.toNat n false .none],
            also := fun c => c.vOk a.toNat && c.vRange b.toNat n, dsts := if s.resumes then [] else [.v b.toNat 1] } fun c =>
    let (ok, faults) := c.checkLanes fun l => c.padCheck win (c.off a 0 l) 4
    let place := fun l => (c.padPlace win (c.off a 0 l) 4).getD (0, 0)
    if c.sp.only == 0 && (c.padWait || c.padRead c.live (ok.map place) 4) then .stall
    else match if c.sp.only == 0 then c.s.emptyLines (ok.map place) 4 else [] with
      | [] =>
        let now := ok.filter fun l => passAt ok place l == 0
        let left := maskOf fun l => c.live.getLsbD l && !now.contains l
        let s := c.padStrong (c.padAcquired c.s (ok.map place)) true
        let s := if c.sp.only == 0 then { s with gangs := modify s.gangs c.gid fun g => g.emptyV (c.vk b.toNat) (maskOf ok.contains) } else s
        let (s, inst) := s.newId
        let s := now.foldl (c.padUpdate op win a b inst) s
        if now.length == ok.length then .done s faults else .again s left
      | lines => .park c.s (.pad lines) faults

end Sys2Proof.Machine
end

