-- ==== Sys2Proof/Machine/Barrier.lean ====
section
/-! DEFINITION. Barriers and fences (12): phases, arrivals, deliveries, gang exits, and the instructions of major opcode 0x6E. -/

namespace Sys2Proof.Machine

/-! ### Barriers (R248 to R251) -/

/-- A barrier as its reset leaves it, with its default EXPECTED ARRIVALS (R248). -/
def Barrier.fresh (n : Nat) : Barrier :=
  { phase := false, expArr := n, arr := 0, expSec := 0, delSec := 0, error := false, code := 0, nextDec := 0, count := 0 }

def State.barGet (s : State) : BarRef → Option Barrier
  | .gang g => (s.gang g).map (·.gangBar)
  | .block b i => (s.block b).bind fun x => look x.bars i
  | .group g i => (look s.groups g).bind fun x => look x.bars i
  | .grid p i => (s.part p).map fun x => lookD (Barrier.fresh 0) x.grid i

def State.barSet (s : State) (r : BarRef) (b : Barrier) : State :=
  match r with
  | .gang g => { s with gangs := modify s.gangs g fun x => { x with gangBar := b } }
  | .block k i => { s with blocks := modify s.blocks k fun x => { x with bars := set x.bars i b } }
  | .group g i => { s with groups := modify s.groups g fun x => { x with bars := set x.bars i b } }
  | .grid p i => { s with parts := modify s.parts p fun x => { x with grid := put (Barrier.fresh 0) x.grid i b } }

/-- The barrier a gang names by level and index (R252). -/
def State.barRef (s : State) (gid : Nat) (g : Gang) (lvl idx : Nat) : Option BarRef :=
  match lvl with
  | 0 => some (.gang gid)
  | 1 => some (.block g.block idx)
  | 2 => ((s.block g.block).bind (·.group)).map fun x => .group x.1 idx
  | _ => (s.block g.block).map fun b => .grid b.part idx

/-- The barrier that a block's command or drain names. -/
def State.barOf (s : State) (bid lvl idx : Nat) : Option BarRef :=
  (s.block bid).bind fun b => match lvl with
    | 0 => none
    | 1 => if idx < b.hdr.blockBars then some (.block bid idx) else none
    | 2 => if idx < b.hdr.clusterBars then b.group.map fun x => .group x.1 idx else none
    | _ => if idx < b.hdr.gridBars then some (.grid b.part idx) else none

/-- The arrival units of a gang: the gang, or each half in compatibility mode (R248). -/
def unitsOfGang (compat : Bool) : List (Nat × Mask) :=
  if compat then [(0, 0x0000FFFF), (1, 0xFFFF0000)] else [(0, BitVec.allOnes 32)]

/-- The key of a gang's records for a barrier and a unit. -/
def barKey (lvl idx unit : Nat) : Nat := (lvl * 16 + idx) * 2 + unit

/-- EXPECTED ARRIVALS after n exits that lower it, which stops at 0 (R250; log 14). -/
def Barrier.lower (b : Barrier) (n : Nat) : Nat := b.expArr - n

/-- Completes a phase, in error with a code or not (R251). Exits that count from the next phase on lower EXPECTED ARRIVALS here (R250). -/
def Barrier.complete (b : Barrier) (err : Option (BitVec 16)) : Barrier :=
  { phase := !b.phase, expArr := b.lower b.nextDec, arr := 0, expSec := 0, delSec := 0,
    error := b.error || err.isSome, code := if b.error then b.code else err.getD b.code, nextDec := 0, count := b.count + 1 }

/-- Evaluates the condition of a phase (R251). -/
def Barrier.settle (b : Barrier) : Barrier :=
  if b.arr < b.expArr then b
  else if b.delSec == b.expSec then b.complete none
  else if b.expSec < b.delSec then b.complete (some 0x0301)
  else b

/-- The phase word (R252). -/
def Barrier.word (b : Barrier) : Word :=
  (if b.error then 0x80000000 else 0) ||| (if b.phase then 0x10000 else 0) ||| (if b.error then b.code.zeroExtend 32 else 0)

/-- Whether a wait by the units of a mask is over: ERROR is set, or PHASE differs from every recorded bit (R251, R252). -/
def waitOver (b : Barrier) (g : Gang) (compat : Bool) (lvl idx : Nat) (m : Mask) : Bool :=
  b.error || ((unitsOfGang compat).filter fun u => u.2 &&& m != 0).all fun u =>
    lookD false g.recorded (barKey lvl idx u.1) != b.phase

/-- The gang has seen a phase of a barrier: the recorded bits of the units of a mask (R252). -/
def Gang.barSeen (g : Gang) (b : Barrier) (compat : Bool) (lvl idx : Nat) (m : Mask) : Gang :=
  let us := (unitsOfGang compat).filter fun u => u.2 &&& m != 0
  { g with recorded := us.foldl (fun r u => put false r (barKey lvl idx u.1) b.phase) g.recorded }

/-- What the end of a wait does to the gang: the recorded bit and the phase word (R252). -/
def Gang.barEnd (g : Gang) (b : Barrier) (compat : Bool) (lvl idx key : Nat) (m : Mask) : Gang :=
  (g.setS key b.word).barSeen b compat lvl idx m

/-- The phase word of a wait that is over on its way to an s register that has to fill first: an acquire at the barrier's scope (R59, R252). -/
def State.phaseReq (s : State) (gid : Nat) (g : Gang) (lvl key : Nat) (m : Mask) (word : Word) : Req :=
  { inst := s.nextId, core := s.coreOf g, part := s.partOf g, gang := gid, seat := g.seat, lane := 32, mask := m, acc := .phase word, addr := 0,
    size := 0, cap := Cap.null, dests := [.s key], scope := lvl + 1, acq := true, pc := 0, word := 0, pfx := 0, issued := [], gen := 0,
    stage := .waiting }

/-- Ends the wait of a split at a barrier that is over: it passes its instruction and becomes ready within 8 clk (R41, R252). Where another split's
load has emptied the register of the phase word, the word waits for it to fill, and the split with it (R59). -/
def State.barPass (s : State) (gid e : Nat) (g : Gang) (sp : Split) (b : Barrier) (lvl idx key : Nat) : State :=
  let compat := g.compat s
  let past := fun (w : Wake) => modify g.splits e fun x => { x with run := .parked w, pc := sp.pc + 4 }
  if !g.sFull key then
    (s.setGang gid { g.barSeen b compat lvl idx sp.mask with splits := modify g.splits e fun x =>
      { x with run := .parked (.fill (sp.pc + 4)) } }).send (s.phaseReq gid g lvl key sp.mask b.word)
  else
    let s := s.setGang gid { g.barEnd b compat lvl idx key sp.mask with splits := past .met }
    if 2 ≤ lvl then s.clearL1 (s.coreOf g) else s

/-- Ends the waits of splits parked on a barrier that its completion satisfies, each judged on the recorded bits that the completion found. -/
def State.barWake (s : State) (r : BarRef) (b : Barrier) : State :=
  s.gangs.foldl (fun s (gid, g0) =>
    g0.splits.foldl (fun s (e, _) =>
      match s.gang gid with
      | none => s
      | some g => match look g.splits e with
        | none => s
        | some sp => match sp.run with
          | .parked (.barrier lvl idx key _) =>
            if s.barRef gid g lvl idx == some r && waitOver b g0 (g0.compat s) lvl idx sp.mask then s.barPass gid e g sp b lvl idx key else s
          | _ => s) s) s

/-- Changes a barrier; a phase that the change completes ends the waits on it. -/
def State.barUpdate (s : State) (r : BarRef) (f : Barrier → Barrier) : State :=
  match s.barGet r with
  | none => s
  | some b =>
    let b' := f b
    let s := s.barSet r b'
    if b'.count != b.count then s.barWake r b' else s

/-- n arrivals, n delivered sectors, and the error phase of a failed command (R248, R251). -/
def State.barArrive (s : State) (r : BarRef) (n : Nat) : State := s.barUpdate r fun b => { b with arr := (b.arr + n) % 2 ^ 32 }.settle
def State.barDeliver (s : State) (r : BarRef) (n : Nat) : State := s.barUpdate r fun b => { b with delSec := (b.delSec + n) % 2 ^ 32 }.settle
def State.barFail (s : State) (r : BarRef) (code : BitVec 16) : State := s.barUpdate r fun b => b.complete (some code)

/-- A unit all of whose unexited lanes have arrived since its last arrival arrives (R250). -/
def State.checkUnit (s : State) (gid lvl idx : Nat) (u : Nat × Mask) : State :=
  match s.gang gid with
  | none => s
  | some g =>
    let un := ~~~g.exited &&& u.2
    let k := barKey lvl idx u.1
    match s.barRef gid g lvl idx with
    | none => s
    | some r => match s.barGet r with
      | none => s
      | some b =>
        if un != 0 && lookD 0 g.arriving k &&& un == un then
          (s.setGang gid { g with arriving := del g.arriving k, recorded := put false g.recorded k b.phase,
                                  arrived := set g.arrived k (b.count + 1) }).barArrive r 1
        else s

/-- Lanes of a gang execute BAR.ARV or BAR.SYNC (R250). -/
def State.barLanes (s : State) (gid lvl idx : Nat) (compat : Bool) (m : Mask) : State :=
  ((unitsOfGang compat).filter fun u => u.2 &&& m != 0).foldl (fun s u =>
    let k := barKey lvl idx u.1
    ({ s with gangs := modify s.gangs gid fun g => { g with arriving := put 0 g.arriving k (lookD 0 g.arriving k ||| (u.2 &&& m)) } }).checkUnit
      gid lvl idx u) s

/-- Lanes have exited: the rest of a unit may have arrived by now, and a unit that has exited whole lowers EXPECTED ARRIVALS of this phase,
or of the next when it had arrived in this one (R250). An exit evaluates no phase but by an arrival that it makes (R251). Grid barriers
count while the gang's launch holds them as declared (R249; log 14). -/
def State.barExit (s : State) (gid : Nat) (m : Mask) : State :=
  match s.gang gid with
  | none => s
  | some g => match s.block g.block with
    | none => s
    | some blk =>
      let held := ((s.part blk.part).map (·.gridHeld)).getD []
      let bars : List (Nat × Nat × Bool) :=
        (0, 0, true) :: (List.range blk.hdr.blockBars).map (fun i => (1, i, true)) ++
          (List.range blk.hdr.clusterBars).map (fun i => (2, i, true)) ++
          (List.range 8).map fun i => (3, i, decide (i < blk.hdr.gridBars) && look held i == some (blk.launch, none))
      bars.foldl (fun s (lvl, idx, counts) => (unitsOfGang blk.hdr.compat).foldl (fun s u =>
        let s := s.checkUnit gid lvl idx u
        match s.gang gid with
        | none => s
        | some g =>
          if !counts || m &&& u.2 == 0 || ~~~g.exited &&& u.2 != 0 then s
          else match s.barRef gid g lvl idx with
            | none => s
            | some r => s.barUpdate r fun b =>
              if look g.arrived (barKey lvl idx u.1) == some (b.count + 1) then { b with nextDec := b.nextDec + 1 }
              else { b with expArr := b.lower 1 }) s) s

/-! ### Meanings -/

/-- Whether a barrier is among those the gang may name (R27, R252). -/
def Ctx.hasBar (c : Ctx) (lvl idx : Nat) : Bool :=
  match lvl with
  | 0 => true
  | 1 => decide (idx < c.blk.hdr.blockBars)
  | 2 => decide (idx < c.blk.hdr.clusterBars)
  | _ => decide (idx < c.blk.hdr.gridBars)

/-- The static rules of a barrier name (R252). -/
def barName (lvl : BitVec 2) (idx : BitVec 4) : Bool := (lvl != 0 || idx == 0) && (lvl != 3 || idx.toNat < 8)

/-- BAR.WAIT's wait, after an arrival or not: over at once, or the split parks at the instruction. -/
def Ctx.barWait (c : Ctx) (s : State) (lvl idx : Nat) (b : Reg) : Act :=
  match s.gang c.gid with
  | none => .stall
  | some g => match (s.barRef c.gid g lvl idx).bind s.barGet with
    | none => .stall
    | some x =>
      if waitOver x g c.blk.hdr.compat lvl idx c.active then
        let s := s.setGang c.gid (g.barEnd x c.blk.hdr.compat lvl idx (c.sk b.toNat) c.active)
        .done (if 2 ≤ lvl then s.clearL1 c.core else s) []
      else .wait s (.barrier lvl idx (c.sk b.toNat) false) []

/-- BAR_ARV (R252): a release at the barrier's scope. -/
def execBarArv (lvl : BitVec 2) (idx : BitVec 4) (s : State) : Out :=
  issue s { wf := barName lvl idx, also := fun c => c.hasBar lvl.toNat idx.toNat } fun c =>
    if c.s.openFor c.gid c.active then .stall
    else .done (c.s.barLanes c.gid lvl.toNat idx.toNat c.blk.hdr.compat c.active) []

/-- BAR_WAIT (R252). -/
def execBarWait (lvl : BitVec 2) (idx : BitVec 4) (b : Reg) (s : State) : Out :=
  issue s { wf := barName lvl idx, also := fun c => c.hasBar lvl.toNat idx.toNat, dsts := [.s b.toNat 1] } fun c =>
    c.barWait c.s lvl.toNat idx.toNat b

/-- BAR_SYNC (R252): the split waits at the instruction from its arrival on, so a phase that the arrival completes ends its wait with the
others, all judged on the recorded bits that the completion finds; a wait that is over without one ends at once. -/
def execBarSync (lvl : BitVec 2) (idx : BitVec 4) (b : Reg) (s : State) : Out :=
  issue s { wf := barName lvl idx, also := fun c => c.hasBar lvl.toNat idx.toNat, dsts := [.s b.toNat 1] } fun c =>
    if c.s.openFor c.gid c.active then .stall
    else
      let s := (c.issued c.s).updSplit c.gid c.e fun sp => { sp with run := .parked (.barrier lvl.toNat idx.toNat (c.sk b.toNat) true) }
      let s := s.barLanes c.gid lvl.toNat idx.toNat c.blk.hdr.compat c.active
      match s.barRef c.gid c.g lvl.toNat idx.toNat with
      | none => .stall
      | some r => match s.barGet r with
        | none => .stall
        | some x => .flow (s.barWake r x)

/-- What BAR.EXP does to a barrier (R251, R252). Exits that count from the next phase on, and the units marked arrived, stay as they are
(log 14). -/
def Barrier.expect (b : Barrier) (x y : Word) : Barrier :=
  let b := if x.msb then { b with error := false, code := 0, arr := 0, expSec := 0, delSec := 0 } else b
  let n := x.toNat % 2 ^ 31
  let b := if n != 0 then { b with expArr := n } else b
  if 2 ^ 32 ≤ b.expSec + y.toNat then b.complete (some 0x0302)
  else { b with expSec := b.expSec + y.toNat }.settle

/-- BAR_EXP (R252). -/
def execBarExp (lvl : BitVec 2) (idx : BitVec 4) (b : Reg) (s : State) : Out :=
  issue s { wf := even b && (barName lvl idx && lvl != 0), also := fun c => c.hasBar lvl.toNat idx.toNat,
            srcs := [.s b.toNat 2 false] } fun c =>
    match c.s.barRef c.gid c.g lvl.toNat idx.toNat with
    | none => .done c.s []
    | some r => .done (c.s.barUpdate r fun x => x.expect (c.sv b.toNat) (c.sv (b.toNat + 1))) []

/-- Whether a write of some lanes to the host window has yet to reach the host link: a store, an alighting, or a drain (R241). -/
def State.toHost (s : State) (gid : Nat) (m : Mask) : Bool :=
  (s.reqs.any fun (_, r) => r.gang == gid && r.touches m && r.isOpen && isHost r.addr) ||
  (s.flueOps.any fun (_, o) => o.gang == gid && o.touches m && o.isAlight && isHost o.addr) ||
  s.drains.any fun (_, d) => d.gang == gid && d.mask &&& m != 0 && d.left.any fun x => isHost x.1

/-- What a fence of a kind waits for (R241): 0 acq, 1 rel, 2 ar, 3 sc. An acquire part waits for the values of its lanes' earlier reads. A
release part that is not sc orders the later writes behind the earlier accesses, which waits for none of them but for a rejection whose
trap has to come first (R174), and at system scope for those to the host window; sc waits for every earlier access (log 52, 74). -/
def Ctx.fenceWaits (c : Ctx) (scope kind : Nat) : Bool :=
  (kind != 1 && c.s.readsOpen c.gid c.active) || (kind != 0 && c.s.rejected c.gid c.active) ||
    (kind == 3 && c.s.openFor c.gid c.active) ||
    (kind != 0 && scope == 5 && c.s.toHost c.gid c.active)

/-- FENCE (R241). In this model every access takes effect in one step of its home slice, so an sc fence has its place in the one order of
R240 where it completes. -/
def execFence (scope : BitVec 3) (kind : BitVec 2) (s : State) : Out :=
  issue s { wf := scope != 0 && scope.toNat < 6 } fun c =>
    if c.fenceWaits scope.toNat kind.toNat then .stall
    else
      let s := if kind == 0 then c.s else { c.s with gangs := modify c.s.gangs c.gid fun g =>
        { g with
          fences := (lanesOf c.active).foldl (fun m l => set m l c.s.nextId) g.fences
          rels := (lanesOf c.active).foldl (fun m l => set m l (max (lookD 0 m l) scope.toNat)) g.rels } }
      .done (if kind != 1 && 3 ≤ scope.toNat then s.clearL1 c.core else s) []

/-- FENCE_SHAPE (R243). It drops every entry of the shape-record cache, those of the split's stores among them (log 15). -/
def execFenceShape (s : State) : Out :=
  issue s {} fun c => if c.s.openFor c.gid c.active then .stall else .done { c.s with shapes := [] } []

end Sys2Proof.Machine
end

