-- ==== Sys2Proof/Machine/Window.lean ====
section
/-! DEFINITION. The host window's translations (10, R202 to R204), what an access finds at its home slice, and capabilities gone stale
(R386, R387). -/

namespace Sys2Proof.Machine

/-- The compute die of a core (R11). -/
def dieOf (core : Nat) : Nat := core / 128

/-- The translation a die holds for an address under a PASID: whether it is read-only. -/
def State.translation (s : State) (die pasid a : Nat) : Option Bool :=
  (s.xlate.find? fun (d, p, base, size, _) => d == die && p == pasid && decide (base ≤ a) && decide (a < base + size)).map (·.2.2.2.2)

/-- Whether a packet for an address can go: one to the host window goes once its translation is there. -/
def State.sendable (s : State) (core part a : Nat) : Bool := !isHost a || (s.translation (dieOf core) (s.pasid part) a).isSome

/-- Whether an ATS request is a die's for a page under a PASID. -/
def AtsReq.isFor (x : AtsReq) (die pasid page : Nat) : Bool := x.die == die && x.pasid == pasid && x.page == page

/-- Whether a page request stands for a die's translation of an address (R204). -/
def State.pageAsked (s : State) (die part a : Nat) : Bool :=
  s.pageReqs.any fun x => x.part == part && x.page == a / 4096 && x.dies.contains die

/-- Makes an ATS translation request of a die for an address, unless the die has one for the page outstanding (R203). -/
def State.askPage (s : State) (die part a : Nat) : State :=
  let pasid := s.pasid part
  let page := a / 4096
  if s.atsOut.any fun x => x.isFor die pasid page then
    { s with atsOut := s.atsOut.map fun x => if x.isFor die pasid page then { x with quiet := false } else x }
  else { s with atsOut := s.atsOut ++ [{ die := die, pasid := pasid, page := page, part := part, quiet := false }] }

/-- The same for a prefetch, which asks for no page (R223). -/
def State.askQuietly (s : State) (die part a : Nat) : State :=
  let pasid := s.pasid part
  let page := a / 4096
  if s.atsOut.any fun x => x.isFor die pasid page then s
  else { s with atsOut := s.atsOut ++ [{ die := die, pasid := pasid, page := page, part := part, quiet := true }] }

/-- What an access meets at its home slice before it is performed. -/
inductive Reach where
  | ok
  | wait (s : State)
  | fail (cause addr : Nat)

/-- The host-window part of a check: the colour, the link, and the translation (R202, R203, R367). -/
def State.reachHost (s : State) (core part : Nat) (writes : Bool) (a : Nat) : Reach :=
  if !s.linkUp then .fail 18 a
  else match s.translation (dieOf core) (s.pasid part) a with
    | none => .wait (s.askPage (dieOf core) part a)
    | some ro => if ro && writes then .fail 19 a else .ok

/-- The checks of an access of size bytes at a home slice: orders 6 and 7, and the translation of a host-window address (R172, R202). -/
def State.reach (s : State) (core part : Nat) (colour : BitVec 8) (gen : BitVec 16) (writes : Bool) (a size : Nat) : Reach :=
  match s.part part with
  | none => .fail 4 a
  | some p =>
    match s.check67 p colour gen writes a size with
    | some (cause, addr) => .fail cause addr
    | none =>
      if !isHost a then .ok
      else match s.reachHost core part writes a with
        | .ok => s.reachHost core part writes (a + size - 1)
        | r => r

/-- The host pages that an access touches. -/
def pagesOf (a size : Nat) : List Nat := [a / 4096, (a + size - 1) / 4096]

/-- The checks of an access by an instruction or a header read, which waits where it stands for a host page that is not there and fails
once the page has (R204). -/
def State.reachFor (s : State) (who core part : Nat) (colour : BitVec 8) (gen : BitVec 16) (writes : Bool) (a size : Nat) : Reach :=
  match if isHost a then s.pageWaits.find? fun (w, p, q, c) => w == who && p == part && (pagesOf a size).contains q && c != 0 else none with
  | some (_, _, _, cause) => .fail cause a
  | none => match s.reach core part colour gen writes a size with
    | .wait s =>
      let ws := (pagesOf a size).foldl (fun ws q => if ws.contains (who, part, q, 0) then ws else ws ++ [(who, part, q, 0)]) s.pageWaits
      .wait { s with pageWaits := ws }
    | r => r

/-- Such an access waits no more. -/
def State.pageDone (s : State) (who part a size : Nat) : State :=
  if isHost a then { s with pageWaits := s.pageWaits.filter fun (w, p, q, _) => !(w == who && p == part && (pagesOf a size).contains q) } else s

/-- Whether a read of n bytes meets a poisoned ECC word, of HBM or of a slice's line (R211, R213). -/
def State.poisoned (s : State) (a n : Nat) : Bool :=
  !isHost a && ((unitsOf 32 a n).any (lookD false s.poison) || (unitsOf 8 a n).any (lookD false s.wordBad))

/-- Whether the sweeper clears a capability's tag (R386). -/
def State.stale (s : State) (c : Cap) : Bool :=
  (c.type == 0 || c.type == 1 || c.type == 2 || c.type == 4) && isHbm c.flat &&
    ((extentsOf c.flat (max c.len 1)).any (fun e =>
        let x := s.extent e; extState x == 0 || extState x == 3 || extGen x != c.gen) ||
      (c.type == 4 && !s.parts.any fun (_, p) => p.inUse && p.colour == c.colour))

/-- A capability as the sweeper leaves it (R386). -/
def State.swept (s : State) (c : Cap) : Cap := if s.stale c then { c with tag := false } else c

/-- A capability as a capability load or store or a tag-keeping copy moves it, from the completion of a free or a delete on (R387). -/
def State.moved (s : State) (c : Cap) : Cap := if s.freed then s.swept c else c

end Sys2Proof.Machine
end

