-- ==== Sys2Proof/Machine/Records.lean ====
section
/-! DEFINITION. Launch records and kernel headers as fields (R25 to R28), the launch queues (R321), the L1 (R201), and errors in memory with
their counts (R211 to R213, R394). -/

namespace Sys2Proof.Machine

/-! ### Launch records and headers -/

def LaunchRec.field (r : LaunchRec) (hi lo : Nat) : Nat := r.bits.toNat / 2 ^ lo % 2 ^ (hi + 1 - lo)
def LaunchRec.completion (r : LaunchRec) : Nat := r.field 315 312
def LaunchRec.priority (r : LaunchRec) : Nat := r.field 306 304
def LaunchRec.group (r : LaunchRec) : Nat := r.field 303 288
def LaunchRec.blocks (r : LaunchRec) : Nat := r.field 279 256
def LaunchRec.param (r : LaunchRec) : Cap := ⟨r.bits.extractLsb' 128 128, r.tags.getLsbD 1⟩
def LaunchRec.code (r : LaunchRec) : Cap := ⟨r.bits.extractLsb' 0 128, r.tags.getLsbD 0⟩
def LaunchRec.arg (r : LaunchRec) (i : Nat) : Word := r.bits.extractLsb' (384 + 32 * i) 32
/-- Whether every reserved bit is 0 (R28). -/
def LaunchRec.clean (r : LaunchRec) : Bool := r.field 383 320 == 0 && r.field 319 316 == 0 && r.field 311 307 == 0 && r.field 287 280 == 0

/-- The record that lies at an address: a snapshot with the tags of its first two granules, which come only with LC (R28, R328). -/
def State.recordAt (s : State) (pasid a : Nat) (tags : Bool) : LaunchRec :=
  let tag := fun i => tags && (s.moved (s.capAt (a + 16 * i))).tag && !isHost a
  { bits := BitVec.ofNat 512 (leNat (s.bytesAt pasid a 64)), tags := (if tag 0 then 1 else 0) ||| (if tag 1 then 2 else 0), addr := a,
    node := none }

/-- A kernel header from its four words (R25, R26). -/
def headerOf (w : List Word) : Header :=
  let f := fun i hi lo => (w.getD i 0).toNat / 2 ^ lo % 2 ^ (hi + 1 - lo)
  { compat := f 0 31 31 == 1, blockHalt := f 0 30 30 == 1, gangs := f 0 29 24, regs := 8 * f 0 23 20, scratch := f 0 19 12, tiles := f 0 11 8,
    banks := f 0 7 3, revision := f 0 2 0, blockBars := f 1 31 27, clusterBars := f 1 26 22, gridBars := f 1 21 18, entry := f 1 15 0,
    codeLen := f 2 23 0 }

/-- A partition's launch queue at a level (R321). -/
def Part.level (p : Part) (l : Nat) : List LaunchRec := lookD [] p.queues l
def Part.setLevel (p : Part) (l : Nat) (q : List LaunchRec) : Part := { p with queues := put [] p.queues l q }

/-- Enters a record at the level of its PRIORITY, unless the level is full (R321). -/
def State.enqueue (s : State) (part : Nat) (r : LaunchRec) : Option State :=
  match s.part part with
  | none => none
  | some p =>
    if 64 ≤ (p.level r.priority).length then none
    else some (s.setPart part (p.setLevel r.priority (p.level r.priority ++ [r])))

/-! ### Counts of memory errors (R394) -/

/-- Adds 1 to a count, which stays at its greatest value. -/
def State.softCount (s : State) (key : Nat) : State :=
  let x := lookD 0 s.soft key
  if x == BitVec.allOnes 32 then s else { s with soft := put 0 s.soft key (x + 1) }

/-- Poisons an ECC word of HBM: counted at its stack, and reported to the host (R213, R394). -/
def State.poisonWord (s : State) (unit : Nat) : State :=
  let a := unit * 32
  ({ s with poison := put false s.poison unit true }.softCount (1024 + 128 + stackOf a)).post 2 20 0 a 2 (stackOf a)

/-- Whether a slice holds the line of an address of HBM. -/
def State.cachedLine (s : State) (a : Nat) : Bool := (lookD [] s.slices (s.homeSlice a)).any fun x => x.line == a / 128

/-- Poisons a word of 8 bytes of a line of HBM in its slice: counted there, and reported to the host (R211, R213, R394). -/
def State.poisonCached (s : State) (w : Nat) : State :=
  ({ s with wordBad := put false s.wordBad w true }.softCount (1024 + s.homeSlice (w * 8))).post 2 20 0 (w * 8) 1 (s.homeSlice (w * 8))

/-- What ECC finds at a read: in the line of a slice, or in HBM (R211, R213). -/
def State.eccRead (s : State) (a : Nat) (err : MemErr) : State :=
  match err with
  | .none => s
  | .corrected => s.softCount (if s.cachedLine a then s.homeSlice a else 128 + stackOf a)
  | .uncorrectable =>
    if s.cachedLine a then (if lookD false s.wordBad (a / 8) then s else s.poisonCached (a / 8))
    else if lookD false s.poison (a / 32) then s else s.poisonWord (a / 32)

/-- The core whose memory a site lies in, while what is named is there. -/
def State.siteCore (s : State) (x : EccSite) : Option Nat :=
  match x with
  | .pad b w => (s.block b).bind fun k => if w * 8 < k.hdr.scratch * 4096 then some k.core else none
  | .l1 c _ _ => some c
  | .v g _ _ => (s.gang g).map s.coreOf
  | .s g _ => (s.gang g).map s.coreOf
  | .k g _ => (s.gang g).map s.coreOf
  | .c g _ => (s.gang g).map s.coreOf
  | .tile b t i w => (s.block b).bind fun k => if t < k.hdr.tiles && i < 64 && w < 16 then some k.core else none
  | .scale b t i w => (s.block b).bind fun k => if t < k.hdr.tiles && i < 64 && w < 4 then some k.core else none
  | .bank b d => (s.block b).bind fun k => if d < k.hdr.banks then some k.core else none
  | .core n => some n
  | .slot _ => none
  | .slice _ => none
  | .cached _ => none
  | .table => none

/-- Poison at a site on a core (R213). An accumulator bank records it as the stationary port's failures are recorded (R267; log 91). -/
def State.poisonSite (s : State) (x : EccSite) : State :=
  match x with
  | .pad b w => { s with blocks := modify s.blocks b fun k => { k with padPoison := put false k.padPoison w true } }
  | .l1 c line w => s.setCore c { s.core c with l1 := (s.core c).l1.map fun y =>
      if y.line == line then { y with bad := y.bad ||| (1#16 <<< (w % 16)) } else y }
  | .v g k l => { s with gangs := modify s.gangs g fun y => { y with vBad := put 0 y.vBad k (lookD 0 y.vBad k ||| bit l) } }
  | .k g k => { s with gangs := modify s.gangs g fun y => { y with kBad := put 0 y.kBad k (BitVec.allOnes 32) } }
  | .s g k => { s with gangs := modify s.gangs g fun y => { y with sBad := put false y.sBad k true } }
  | .c g k => { s with gangs := modify s.gangs g fun y => { y with cBad := put false y.cBad k true } }
  | .tile b t i w => { s with blocks := modify s.blocks b fun k => { k with tileBad := put false k.tileBad ((t * 64 + i) * 16 + w) true } }
  | .scale b t i w => { s with blocks := modify s.blocks b fun k => { k with scaleBad := put false k.scaleBad ((t * 64 + i) * 4 + w) true } }
  | .bank b d => { s with blocks := modify s.blocks b fun k => { k with bankInfo := k.bankInfo.map fun (n, i) =>
      if n == d && i.alloc && i.cause == 0 then (n, { i with cause := 20, addr := 0 }) else (n, i) } }
  | _ => s

/-- ECC meets an error in an on-chip memory: corrected, it is counted and nothing else changes; uncorrectable, it poisons what it struck, is
counted, and is reported to the host (R211 to R213, R296, R394; log 91). -/
def State.ecc (s : State) (x : EccSite) (corrected : Bool) : State :=
  match x with
  | .slot n =>
    if corrected then s.softCount 136
    else
      let owner := ((s.parts.find? fun (_, p) => p.flueFirst ≤ n && n < p.flueFirst + p.flueCount).map (·.1)).getD 0
      ((s.setSlot n { s.slot n with poison := true }).softCount (1024 + 136)).post 2 20 0 0 4 owner
  | .cached w =>
    if !s.cachedLine (w * 8) || isHost (w * 8) then s else if corrected then s.softCount (s.homeSlice (w * 8)) else s.poisonCached w
  | .table => if corrected then s else s.post 2 20 0 0 0 0
  | .slice n => if corrected then s.softCount (n % 128) else (s.softCount (1024 + n % 128)).post 2 20 0 0 1 (n % 128)
  | x => match s.siteCore x with
    | none => s
    | some n =>
      if corrected then
        let k := s.core n
        s.setCore n { k with softerr := if k.softerr == BitVec.allOnes 32 then k.softerr else k.softerr + 1 }
      else ((s.poisonSite x).softCount (2048 + n)).post 2 20 0 0 0 n

/-! ### Lines that leave (R193) -/

/-- The lines of an extent leave every slice and every L1 (R193, R198). -/
def State.dropExtent (s : State) (e : Nat) : State :=
  let keep := fun line => decide (line / 16384 ≠ e)
  { s with
    slices := s.slices.filterMap fun (k, ls) =>
      let ls := ls.filter fun x => keep x.line
      if ls.isEmpty then none else some (k, ls)
    cores := s.cores.map fun (k, c) => (k, { c with l1 := c.l1.filter fun x => keep x.line }) }

/-! ### The L1 (R201) -/

/-- Brings a line into an L1 of 1,024 lines; the line filled longest ago goes and enters the victim tag array (R335; log 31). -/
def Core.fillL1 (c : Core) (x : L1Line) : Core :=
  let ls := x :: c.l1.filter (·.line != x.line)
  if ls.length ≤ 1024 then { c with l1 := ls }
  else
    let gone := (ls.drop 1024).map (·.line)
    { c with l1 := ls.take 1024, victims := (gone ++ c.victims.filter fun v => !gone.contains v).take 512 }

end Sys2Proof.Machine
end

