-- ==== Sys2Proof/Machine/Flue.lean ====
section
/-! DEFINITION. The flue instructions of major opcode 0x70 (14): what is checked and made at issue. The passes of the grates stand in
FlueEvents.lean. -/

namespace Sys2Proof.Machine

/-- The absolute slot number that a slot offset of a type 3 capability names (R281, R283). -/
def Cap.slot (c : Cap) (off : Nat) : Nat := c.base + off

/-- The checks at issue of a use of n slots (R283): the faulting address is the absolute slot number (log 30). -/
def flueCheck (c : Cap) (perm : BitVec 8) (n off : Nat) : Option (Nat × Nat) :=
  match check14 c 3 perm off n with
  | some cause => some (cause, c.slot off)
  | none => if c.slot off % n != 0 then some (16, c.slot off) else none

/-- A flue operation of a lane. -/
def Ctx.flueOp (c : Ctx) (inst lane : Nat) (kind : FlueKind) (cap : Cap) (off : Nat) (mem : Cap) (addr : Nat) (dests : List Nat)
    (ord acq rel : Bool) : FlueOp :=
  { inst := inst, core := c.core, part := c.pid, gang := c.gid, lane := lane, kind := kind, slot := cap.slot off, colour := cap.colour,
    cap := mem, addr := addr, dests := dests.map .v, ord := ord, acq := acq, rel := rel, clk := c.s.clk.toNat, pc := c.pc, word := c.word, pfx := c.pfxWord,
    issued := c.g.ticksWith c.active, gen := lookD 0 (c.s.core c.core).ctxgen c.g.seat, fault := none, wall := if rel then c.s.nextId else c.g.fenceOf (bit lane) }

/-- Puts one operation per lane on its way, in ascending lane order (R290). -/
def State.sendFlue (s : State) (ls : List Nat) (mk : Nat → FlueOp) : State :=
  ls.foldl (fun s l => let (s, id) := s.newId; { s with flueOps := set s.flueOps id (mk l) }) s

/-- BOARD and ALIGHT (R284, R285): the slot operation of each lane, and for a boarding its read of memory, which is the access that waits for
the lane's earlier acquires: no slot operation does (R244, R292). -/
def flueMove (board : Bool) (f : CReg) (ord rel : Bool) (a : Reg) (m : CReg) (s : State) : Out :=
  issue s { wf := even a, k2 := false, srcs := [.v a.toNat 2 false .none, .c f.toNat, .c m.toNat] } fun c =>
    let cap := c.cv f.toNat
    let mem := c.cv m.toNat
    let slot := fun l => (c.v a.toNat .none l).toNat
    let off := fun l => ((c.v (a.toNat + 1) .none l).toNat : Int)
    let (ok, faults) := c.checkLanes fun l =>
      match flueCheck cap permW 1 (slot l) with
      | some x => some x
      | none => check15 mem (if board then permR else permW) (off l) 16 16
    let (s, inst) := c.s.newId
    .done (ok.foldl (fun s l =>
      let (s, id) := s.newId
      let addr := mem.at (off l)
      let kind : FlueKind := if board then .board none else .alight false
      let s := { s with flueOps := set s.flueOps id (c.flueOp inst l kind cap (slot l) mem addr [] ord false rel) }
      if board then s.send { c.req inst l (.board id) addr 16 mem [] with acq := false } else s) s) faults

/-- FLUE.WAIT (R288): the split parks at the instruction until every lane has latched. -/
def flueWait (ne : Bool) (f : CReg) (ord acq : Bool) (a b : Reg) (s : State) : Out :=
  issue s { k2 := false, srcs := [.v a.toNat 1 false .none, .v b.toNat 1 false .none, .c f.toNat] } fun c =>
    let cap := c.cv f.toNat
    let slot := fun l => (c.v a.toNat .none l).toNat
    let (ok, faults) := c.checkLanes fun l => flueCheck cap permR 1 (slot l)
    let (s, inst) := c.s.newId
    let s := s.sendFlue ok fun l =>
      c.flueOp inst l (.wait ne (c.v b.toNat .none l)) cap (slot l) Cap.null 0 [] ord acq false
    if ok.isEmpty then .done s faults else .wait s (.flue c.next) faults

/-- A capture of n slots (R286): the data registers are read, and the first 4n of them emptied, at issue. -/
def flueCapture (n : Nat) (f : CReg) (ord : Bool) (ordering : BitVec 2) (op : BitVec 3) (a b : Reg) (s : State) : Out :=
  let k := if op == 7 then 8 * n else 4 * n
  issue s { wf := ordering != 3 && multiple k b, k2 := false, srcs := [.v a.toNat 1 false .none, .v b.toNat k false .none, .c f.toNat],
            dsts := [.v b.toNat (4 * n)] } fun c =>
    let cap := c.cv f.toNat
    let slot := fun l => (c.v a.toNat .none l).toNat
    let (ok, faults) := c.checkLanes fun l => flueCheck cap (permR ||| permW) n (slot l)
    let keys := (List.range (4 * n)).map fun i => c.vk (b.toNat + i)
    let (s, inst) := c.s.newId
    let s := { s with gangs := modify s.gangs c.gid fun g => keys.foldl (fun g k => g.emptyV k (maskOf ok.contains)) g }
    .done (s.sendFlue ok fun l =>
      c.flueOp inst l (.cap n op.toNat ((List.range k).map fun i => c.v (b.toNat + i) .none l)) cap (slot l) Cap.null 0 keys ord
        (ordering == 1) (ordering == 2)) faults

/-- FLUE_BOARD (R284). -/
def execFlueBoard (c : CReg) (ord rel : Bool) (a : Reg) (m : CReg) (s : State) : Out := flueMove true c ord rel a m s

/-- FLUE_ALIGHT (R285). -/
def execFlueAlight (c : CReg) (ord rel : Bool) (a : Reg) (m : CReg) (s : State) : Out := flueMove false c ord rel a m s

/-- FLUE_PEEK (R287). -/
def execFluePeek (f : CReg) (ord acq : Bool) (a b : Reg) (s : State) : Out :=
  issue s { wf := quad b, k2 := false, srcs := [.v a.toNat 1 false .none, .c f.toNat], dsts := [.v b.toNat 4] } fun c =>
    let cap := c.cv f.toNat
    let slot := fun l => (c.v a.toNat .none l).toNat
    let (ok, faults) := c.checkLanes fun l => flueCheck cap permR 1 (slot l)
    let keys := (List.range 4).map fun i => c.vk (b.toNat + i)
    let (s, inst) := c.s.newId
    let s := { s with gangs := modify s.gangs c.gid fun g => keys.foldl (fun g k => g.emptyV k (maskOf ok.contains)) g }
    .done (s.sendFlue ok fun l => c.flueOp inst l .peek cap (slot l) Cap.null 0 keys ord acq false) faults

/-- FLUE_WAIT_EQ (R288). -/
def execFlueWaitEq (c : CReg) (ord acq : Bool) (a b : Reg) (s : State) : Out := flueWait false c ord acq a b s

/-- FLUE_WAIT_NE (R288). -/
def execFlueWaitNe (c : CReg) (ord acq : Bool) (a b : Reg) (s : State) : Out := flueWait true c ord acq a b s

/-- FLUE_REV (R289): once per issue, orders 1 to 3 only. -/
def execFlueRev (f : CReg) (b : Reg) (s : State) : Out :=
  issue s { k2 := false, srcs := [.c f.toNat], dsts := [.s b.toNat 1] } fun c =>
    match check14 (c.cv f.toNat) 3 permR 0 0 with
    | some cause => .trap cause (c.cv f.toNat).base 0
    | none => c.writeS b.toNat (BitVec.ofNat 32 (c.s.clk.toNat / 128))

/-- FLUE_CAP (R286). -/
def execFlueCap (c : CReg) (ord : Bool) (ordering : BitVec 2) (op : BitVec 3) (a b : Reg) (s : State) : Out :=
  flueCapture 1 c ord ordering op a b s

/-- FLUE_CAP_S2 (R286). -/
def execFlueCapS2 (c : CReg) (ord : Bool) (ordering : BitVec 2) (op : BitVec 3) (a b : Reg) (s : State) : Out :=
  flueCapture 2 c ord ordering op a b s

/-- FLUE_CAP_S4 (R286). -/
def execFlueCapS4 (c : CReg) (ord : Bool) (ordering : BitVec 2) (op : BitVec 3) (a b : Reg) (s : State) : Out :=
  flueCapture 4 c ord ordering op a b s

end Sys2Proof.Machine
end

