-- ==== Sys2Proof/Machine/Memory.lean ====
section
/-! DEFINITION. Memory access and atomic instructions (11): one meaning per instruction over the forms of Access.lean. -/

namespace Sys2Proof.Machine

/-! ### Shared forms -/

/-- An M-format load of n registers (R218): the displacement is scaled by the size. -/
def loadM (quadForm : Bool) (n : Nat) (po : Bool) (disp : BitVec 7) (base : CReg) (o d : Reg) (s : State) : Out :=
  issue s { wf := multiple n d, srcs := .v o.toNat 1 po .none :: quadSrc quadForm base po, dsts := [.v d.toNat n] } fun c =>
    c.load ((List.range n).map fun i => c.vk (d.toNat + i)) (4 * n) (fun _ => .load false (c.pfx.scope == 0)) false true
      (c.laneCap quadForm base) (c.off o (disp.toInt * (4 * n)))

/-- An M-format store of n registers (R218). -/
def storeM (quadForm : Bool) (n : Nat) (po : Bool) (disp : BitVec 7) (base : CReg) (o d : Reg) (s : State) : Out :=
  issue s { wf := multiple n d, srcs := .v o.toNat 1 po .none :: .v d.toNat n false .none :: quadSrc quadForm base po } fun c =>
    c.store (4 * n) (c.regBytes d.toNat n) (c.laneCap quadForm base) (c.off o (disp.toInt * (4 * n)))

/-- An X-format load of size bytes into n registers (R218): no displacement, and every source waits. -/
def loadX (quadForm signed : Bool) (size n : Nat) (base : CReg) (a b : Reg) (s : State) : Out :=
  issue s { wf := multiple n b, srcs := .v a.toNat 1 false .none :: quadSrc quadForm base false, dsts := [.v b.toNat n] } fun c =>
    c.load ((List.range n).map fun i => c.vk (b.toNat + i)) size (fun _ => .load signed (c.pfx.scope == 0)) signed true
      (c.laneCap quadForm base) (c.off a 0)

/-- An X-format store of size bytes from n registers (R218). -/
def storeX (quadForm : Bool) (size n : Nat) (base : CReg) (a b : Reg) (s : State) : Out :=
  issue s { wf := multiple n b, srcs := .v a.toNat 1 false .none :: .v b.toNat n false .none :: quadSrc quadForm base false } fun c =>
    c.store size (fun l => (c.regBytes b.toNat n l).take size) (c.laneCap quadForm base) (c.off a 0)

/-- WAITMEM (R224): each lane that passes its checks waits at its home slice, and the split parks at the instruction until all have
latched. -/
def waitmem (ne : Bool) (cap : CReg) (a b : Reg) (s : State) : Out :=
  issue s { srcs := [.v a.toNat 1 false .none, .v b.toNat 1 false .none, .c cap.toNat] } fun c =>
    if c.mustWait then .stall
    else
      let x := c.cv cap.toNat
      let (ok, faults) := c.checkLanes fun l => check15 x permR (c.off a 0 l) 4 4
      let s := c.sendLanes c.s ok [] fun inst l => c.req inst l (.wait ne (c.v b.toNat .none l)) (x.at (c.off a 0 l)) 4 x []
      if ok.isEmpty then .done s faults else .wait s (.waitmem c.next) faults

/-- SPEMPTY and SPFILL (R222). -/
def spline (empty : Bool) (a : Reg) (s : State) : Out :=
  issue s { srcs := [.v a.toNat 1 false .none] } fun c =>
    let (ok, faults) := c.checkLanes fun l =>
      if (c.off a 0 l).toNat < c.blk.padSize then none else some (2, (c.off a 0 l).toNat)
    .done { c.s with blocks := modify c.s.blocks c.g.block fun b =>
      { b with
        padEmpty := ok.foldl (fun m l => put false m ((c.off a 0 l).toNat / 128) empty) b.padEmpty
        padFar := ok.foldl (fun m l => put false m ((c.off a 0 l).toNat / 128) false) b.padFar } } faults

/-! ### Shape records (R230, R231) -/

/-- The lowest word of a shape record that fails its tests (R231). -/
def shapeBad (w : List Word) : Option Nat :=
  let x := fun i => (w.getD i 0).toNat
  let fmt := x 6 % 16
  let ok6 := x 6 < 16 && 1 ≤ fmt && fmt ≤ 7
  let cols := x 3 % 2 ^ 24
  let rows := x 4 % 2 ^ 24
  let trows := x 5 / 2 ^ 16 % 128
  let tcols := x 5 % 512
  let sb := ok6 && isSb fmt
  let ok3 := x 3 < 2 ^ 24 && 1 ≤ cols && (!sb || cols % 16 == 0)
  let ok5 := x 5 < 2 ^ 23 && x 5 / 2 ^ 9 % 128 == 0 && 1 ≤ trows && trows ≤ 64 && 1 ≤ tcols && tcols ≤ 256 &&
    (!sb || tcols % 16 == 0) && (!ok6 || tcols * elemBits fmt ≤ 1024)
  let unit := match fmt with
    | 1 => 2
    | 2 => 2
    | 3 => 4
    | 7 => 1
    | _ => 128
  let rowSize := if isSb fmt then 128 * ((cols * elemBits fmt + 1023) / 1024) else (cols * elemBits fmt + 7) / 8
  let ok2 := !ok6 || !ok3 || (x 2 % unit == 0 && rowSize ≤ x 2)
  let oks := [x 0 % 16 == 0, x 1 < 256, ok2, ok3, x 4 < 2 ^ 24 && 1 ≤ rows, ok5, ok6, x 7 == 0]
  (List.range 8).find? fun i => !oks.getD i true

/-! ### Meanings -/

/-- LD_32 (R218). -/
def execLd32 (po : Bool) (disp : BitVec 7) (base : CReg) (o d : Reg) (s : State) : Out := loadM false 1 po disp base o d s

/-- LD_64 (R218). -/
def execLd64 (po : Bool) (disp : BitVec 7) (base : CReg) (o d : Reg) (s : State) : Out := loadM false 2 po disp base o d s

/-- LD_128 (R218). -/
def execLd128 (po : Bool) (disp : BitVec 7) (base : CReg) (o d : Reg) (s : State) : Out := loadM false 4 po disp base o d s

/-- ST_32 (R218). -/
def execSt32 (po : Bool) (disp : BitVec 7) (base : CReg) (o d : Reg) (s : State) : Out := storeM false 1 po disp base o d s

/-- ST_64 (R218). -/
def execSt64 (po : Bool) (disp : BitVec 7) (base : CReg) (o d : Reg) (s : State) : Out := storeM false 2 po disp base o d s

/-- ST_128 (R218). -/
def execSt128 (po : Bool) (disp : BitVec 7) (base : CReg) (o d : Reg) (s : State) : Out := storeM false 4 po disp base o d s

/-- LD_32_QUAD (R218). -/
def execLd32Quad (po : Bool) (disp : BitVec 7) (base : CReg) (o d : Reg) (s : State) : Out := loadM true 1 po disp base o d s

/-- ST_32_QUAD (R218). -/
def execSt32Quad (po : Bool) (disp : BitVec 7) (base : CReg) (o d : Reg) (s : State) : Out := storeM true 1 po disp base o d s

/-- LDU_32 (R219). -/
def execLdu32 (po : Bool) (disp : BitVec 7) (base : CReg) (o d : Reg) (s : State) : Out := 
  issue s { srcs := [.s o.toNat 1 po, .c base.toNat], dsts := [.s d.toNat 1] } fun c =>
    if c.loadWait then .stall
    else
      let x := c.cv base.toNat
      let off : Int := (c.sv o.toNat).toNat + disp.toInt * 4
      match check15 x permR off 4 4 with
      | some (cause, addr) => .trap cause addr 0
      | none =>
        let (s, inst) := c.s.newId
        let r := c.req inst 32 (.load false (c.pfx.scope == 0)) (x.at off) 4 x [.s (c.sk d.toNat)]
        let r := match if c.pfx.scope == 0 then c.s.l1Hit c.core x (x.at off) else none with
          | some y => { r with stage := y.answer false (x.at off) 4 }
          | none => r
        let s := { s with gangs := modify s.gangs c.gid fun g => g.emptyS (c.sk d.toNat) }
        let s := (c.countLines s [(x, x.at off)]).send r
        if isHost (x.at off) then .parkNext s .host [] else .done s []

/-- CLD (R220). -/
def execCld (po : Bool) (disp : BitVec 7) (base : CReg) (o d : Reg) (s : State) : Out := 
  issue s { wf := quad d, srcs := [.v o.toNat 1 po .none, .c base.toNat], dsts := [.v d.toNat 4] } fun c =>
    c.load ((List.range 4).map fun i => c.vk (d.toNat + i)) 16 (fun x => .loadCap (x.allows permLC)) false false
      (fun _ => c.cv base.toNat) (c.off o (disp.toInt * 16))

/-- CST (R220). -/
def execCst (po : Bool) (disp : BitVec 7) (base : CReg) (o d : Reg) (s : State) : Out := 
  issue s { wf := quad d, srcs := [.v o.toNat 1 po .none, .v d.toNat 4 false .none, .c base.toNat] } fun c =>
    if c.mustWait then .stall
    else
      let x := c.cv base.toNat
      let off := c.off o (disp.toInt * 16)
      let data := fun l => c.g.quadAt (c.vk d.toNat) l
      let (ok, faults) := c.checkLanes fun l =>
        match check15 x (if (data l).tag then permW ||| permSC else permW) (off l) 16 16 with
        | some (cause, addr) => if isHost x.flat && cause != 1 && cause != 6 then some (3, addr) else some (cause, addr)
        | none => if isHost x.flat then some (3, x.at (off l)) else none
      .done (c.sendLanes c.s ok [] fun inst l => c.req inst l (.storeCap (data l)) (x.at (off l)) 16 x []) faults

/-- LDS_32 (R221). -/
def execLds32 (po : Bool) (disp : BitVec 7) (win : Bool) (o d : Reg) (s : State) : Out := 
  issue s { srcs := [.v o.toNat 1 po .none], dsts := [.v d.toNat 1] } fun c =>
    if c.mustWait then .stall
    else
      let off := c.off o (disp.toInt * 4)
      let (ok, faults) := c.checkLanes fun l => c.padCheck win (off l) 4
      let place := fun l => (c.padPlace win (off l) 4).getD (0, 0)
      match c.s.emptyLines (ok.map place) 4 with
      | [] =>
        let key := c.vk d.toNat
        .done (c.sendLanes (c.padAcquired c.s (ok.map place)) ok [key] fun inst l =>
          let (id, p) := place l
          let r := { c.req inst l .onCore p 4 Cap.null [.v key] with acq := false }
          match c.s.block id with
          | some b => { r with stage := if b.padPoisoned p 4 then .rejected 20 (off l).toNat else .replied (wordsOf 1 (b.padBytes p 4)) false }
          | none => r) faults
      | lines => .park c.s (.pad lines) faults

/-- STS_32 (R221). -/
def execSts32 (po : Bool) (disp : BitVec 7) (win : Bool) (o d : Reg) (s : State) : Out := 
  issue s { srcs := [.v o.toNat 1 po .none, .v d.toNat 1 false .none] } fun c =>
    let off := c.off o (disp.toInt * 4)
    let (ok, faults) := c.checkLanes fun l => c.padCheck win (off l) 4
    let place := fun l => (c.padPlace win (off l) 4).getD (0, 0)
    if c.padWait || c.padRead c.live (ok.map place) 4 then .stall
    else .done (ok.foldl (fun s l =>
        { s with blocks := modify s.blocks (place l).1 fun b => b.padWrite (place l).2 (leBytes 4 (c.v d.toNat .none l).toNat) })
      (c.padStrong c.s (c.pfx.scope != 0))) faults

/-- LD_N8 (R218). -/
def execLdN8 (c : CReg) (a b : Reg) (s : State) : Out := loadX false false 1 1 c a b s

/-- LD_I8 (R218). -/
def execLdI8 (c : CReg) (a b : Reg) (s : State) : Out := loadX false true 1 1 c a b s

/-- LD_N16 (R218). -/
def execLdN16 (c : CReg) (a b : Reg) (s : State) : Out := loadX false false 2 1 c a b s

/-- LD_I16 (R218). -/
def execLdI16 (c : CReg) (a b : Reg) (s : State) : Out := loadX false true 2 1 c a b s

/-- ST_8 (R218). -/
def execSt8 (c : CReg) (a b : Reg) (s : State) : Out := storeX false 1 1 c a b s

/-- ST_16 (R218). -/
def execSt16 (c : CReg) (a b : Reg) (s : State) : Out := storeX false 2 1 c a b s

/-- LD_N8_QUAD (R218). -/
def execLdN8Quad (c : CReg) (a b : Reg) (s : State) : Out := loadX true false 1 1 c a b s

/-- LD_I8_QUAD (R218). -/
def execLdI8Quad (c : CReg) (a b : Reg) (s : State) : Out := loadX true true 1 1 c a b s

/-- LD_N16_QUAD (R218). -/
def execLdN16Quad (c : CReg) (a b : Reg) (s : State) : Out := loadX true false 2 1 c a b s

/-- LD_I16_QUAD (R218). -/
def execLdI16Quad (c : CReg) (a b : Reg) (s : State) : Out := loadX true true 2 1 c a b s

/-- ST_8_QUAD (R218). -/
def execSt8Quad (c : CReg) (a b : Reg) (s : State) : Out := storeX true 1 1 c a b s

/-- ST_16_QUAD (R218). -/
def execSt16Quad (c : CReg) (a b : Reg) (s : State) : Out := storeX true 2 1 c a b s

/-- LD_64_QUAD (R218). -/
def execLd64Quad (c : CReg) (a b : Reg) (s : State) : Out := loadX true false 8 2 c a b s

/-- ST_64_QUAD (R218). -/
def execSt64Quad (c : CReg) (a b : Reg) (s : State) : Out := storeX true 8 2 c a b s

/-- LD_128_QUAD (R218). -/
def execLd128Quad (c : CReg) (a b : Reg) (s : State) : Out := loadX true false 16 4 c a b s

/-- ST_128_QUAD (R218). -/
def execSt128Quad (c : CReg) (a b : Reg) (s : State) : Out := storeX true 16 4 c a b s

/-- ATOM_ADD (R225). -/
def execAtomAdd (c : CReg) (a b : Reg) (s : State) : Out := atomic 0 true c a b s

/-- ATOM_MIN_I32 (R225). -/
def execAtomMinI32 (c : CReg) (a b : Reg) (s : State) : Out := atomic 1 true c a b s

/-- ATOM_MAX_I32 (R225). -/
def execAtomMaxI32 (c : CReg) (a b : Reg) (s : State) : Out := atomic 2 true c a b s

/-- ATOM_MIN_N32 (R225). -/
def execAtomMinN32 (c : CReg) (a b : Reg) (s : State) : Out := atomic 3 true c a b s

/-- ATOM_MAX_N32 (R225). -/
def execAtomMaxN32 (c : CReg) (a b : Reg) (s : State) : Out := atomic 4 true c a b s

/-- ATOM_AND (R225). -/
def execAtomAnd (c : CReg) (a b : Reg) (s : State) : Out := atomic 5 true c a b s

/-- ATOM_OR (R225). -/
def execAtomOr (c : CReg) (a b : Reg) (s : State) : Out := atomic 6 true c a b s

/-- ATOM_XOR (R225). -/
def execAtomXor (c : CReg) (a b : Reg) (s : State) : Out := atomic 7 true c a b s

/-- ATOM_SWAP (R225). -/
def execAtomSwap (c : CReg) (a b : Reg) (s : State) : Out := atomic 8 true c a b s

/-- ATOM_CAS (R225). -/
def execAtomCas (c : CReg) (a b : Reg) (s : State) : Out := atomic 9 true c a b s

/-- ATOM_ADD_F32 (R225). -/
def execAtomAddF32 (c : CReg) (a b : Reg) (s : State) : Out := atomic 10 true c a b s

/-- RED_ADD (R225). -/
def execRedAdd (c : CReg) (a b : Reg) (s : State) : Out := atomic 0 false c a b s

/-- RED_MIN_I32 (R225). -/
def execRedMinI32 (c : CReg) (a b : Reg) (s : State) : Out := atomic 1 false c a b s

/-- RED_MAX_I32 (R225). -/
def execRedMaxI32 (c : CReg) (a b : Reg) (s : State) : Out := atomic 2 false c a b s

/-- RED_MIN_N32 (R225). -/
def execRedMinN32 (c : CReg) (a b : Reg) (s : State) : Out := atomic 3 false c a b s

/-- RED_MAX_N32 (R225). -/
def execRedMaxN32 (c : CReg) (a b : Reg) (s : State) : Out := atomic 4 false c a b s

/-- RED_AND (R225). -/
def execRedAnd (c : CReg) (a b : Reg) (s : State) : Out := atomic 5 false c a b s

/-- RED_OR (R225). -/
def execRedOr (c : CReg) (a b : Reg) (s : State) : Out := atomic 6 false c a b s

/-- RED_XOR (R225). -/
def execRedXor (c : CReg) (a b : Reg) (s : State) : Out := atomic 7 false c a b s

/-- RED_ADD_F32 (R225). -/
def execRedAddF32 (c : CReg) (a b : Reg) (s : State) : Out := atomic 10 false c a b s

/-- ATOMS_ADD (R226). -/
def execAtomsAdd (win : Bool) (a b : Reg) (s : State) : Out := atomicPad 0 win a b s

/-- ATOMS_MIN_I32 (R226). -/
def execAtomsMinI32 (win : Bool) (a b : Reg) (s : State) : Out := atomicPad 1 win a b s

/-- ATOMS_MAX_I32 (R226). -/
def execAtomsMaxI32 (win : Bool) (a b : Reg) (s : State) : Out := atomicPad 2 win a b s

/-- ATOMS_MIN_N32 (R226). -/
def execAtomsMinN32 (win : Bool) (a b : Reg) (s : State) : Out := atomicPad 3 win a b s

/-- ATOMS_MAX_N32 (R226). -/
def execAtomsMaxN32 (win : Bool) (a b : Reg) (s : State) : Out := atomicPad 4 win a b s

/-- ATOMS_AND (R226). -/
def execAtomsAnd (win : Bool) (a b : Reg) (s : State) : Out := atomicPad 5 win a b s

/-- ATOMS_OR (R226). -/
def execAtomsOr (win : Bool) (a b : Reg) (s : State) : Out := atomicPad 6 win a b s

/-- ATOMS_XOR (R226). -/
def execAtomsXor (win : Bool) (a b : Reg) (s : State) : Out := atomicPad 7 win a b s

/-- ATOMS_SWAP (R226). -/
def execAtomsSwap (win : Bool) (a b : Reg) (s : State) : Out := atomicPad 8 win a b s

/-- ATOMS_CAS (R226). -/
def execAtomsCas (win : Bool) (a b : Reg) (s : State) : Out := atomicPad 9 win a b s

/-- ATOMS_ADD_F32 (R226). -/
def execAtomsAddF32 (win : Bool) (a b : Reg) (s : State) : Out := atomicPad 10 win a b s

/-- PREFETCH (R223). -/
def execPrefetch (c : CReg) (a : Reg) (s : State) : Out := 
  issue s { srcs := [.v a.toNat 1 false .none, .c c.toNat] } fun x =>
    let cap := x.cv c.toNat
    let ok := (lanesOf x.live).filter fun l => (check14 cap 0 permR (x.off a 0 l) 1).isNone
    .done (x.sendLanes x.s ok [] fun inst l => x.req inst l .prefetch (cap.at (x.off a 0 l)) 1 cap []) []

/-- WAITMEM_NE (R224). -/
def execWaitmemNe (c : CReg) (a b : Reg) (s : State) : Out := waitmem true c a b s

/-- WAITMEM_EQ (R224). -/
def execWaitmemEq (c : CReg) (a b : Reg) (s : State) : Out := waitmem false c a b s

/-- SPEMPTY (R222). -/
def execSpempty (a : Reg) (s : State) : Out := spline true a s

/-- SPFILL (R222). -/
def execSpfill (a : Reg) (s : State) : Out := spline false a s

/-- SHAPE (R231). -/
def execShape (c : CReg) (a b : Reg) (s : State) : Out := 
  issue s { wf := multiple 8 b, srcs := [.s a.toNat 1 false, .s b.toNat 8 false, .c c.toNat] } fun x =>
    if x.mustWait then .stall
    else
      let cap := x.cv c.toNat
      let off : Int := (x.sv a.toNat).toNat
      let words := (List.range 8).map fun i => x.sv (b.toNat + i)
      match check15 cap permW off 32 32 with
      | some (cause, addr) => .trap cause addr 0
      | none => match shapeBad words with
        | some i => .trap 52 0 i
        | none =>
          let (s, inst) := x.s.newId
          .done (s.send (x.req inst 32 (.store (words.flatMap fun w => leBytes 4 w.toNat)) (cap.at off) 32 cap [])) []

end Sys2Proof.Machine
end

