-- ==== Sys2Proof/Machine/Matrix.lean ====
section
/-! DEFINITION. Tiles, the matrix engine and the accumulator store (13): tile images, matrix arithmetic, and the instructions of major
opcode 0x6F. What the engine, tile loads and drains do after issue stands in MatrixEvents.lean. -/

namespace Sys2Proof.Machine

/-! ### Tile configurations and images (R65, R66, R254) -/

/-- Whether TCFG accepts a value (R65, R66); K2 code has no SB formats (R258). -/
def cfgOk (k2 : Bool) (x : Word) : Bool :=
  let f := cfgFormat x
  x == 0 || (1 ≤ f && f ≤ 6 && !(k2 && 4 ≤ f) && 1 ≤ cfgRows x && cfgRows x ≤ 64 && 1 ≤ cfgCols x && cfgCols x ≤ 256 &&
    cfgCols x * elemBits f ≤ 1024 && (!isSb f || cfgCols x % 16 == 0) && x &&& 0xFE0080F0 == 0)

/-- Element j of a row of bytes, of e bits (R134, R254). -/
def elemAt (row : List Byte) (e j : Nat) : Nat :=
  let b := j * e
  leNat ((row.drop (b / 8)).take ((b % 8 + e + 7) / 8)) / 2 ^ (b % 8) % 2 ^ e

/-- Packs elements of e bits into n bytes (R134). -/
def packElems (e n : Nat) (xs : List Nat) : List Byte := leBytes n (xs.reverse.foldl (fun acc x => acc * 2 ^ e + x) 0)

/-! ### Tile storage (R255) -/

def Block.tileRow (b : Block) (t i : Nat) : List Byte := readFrom b.tile (t * 8192 + i * 128) 128
def Block.scaleAt (b : Block) (t i j : Nat) : BitVec 16 := lookD 0 b.scale (t * 1024 + i * 16 + j)
def Block.tileFull (b : Block) (t : Nat) : Bool := !lookD false b.tileEmpty t
/-- Writes a row of a tile whole: what the bytes given do not reach is 0 (R134, R255), and an error it held is gone (R213). -/
def Block.setRow (b : Block) (t i : Nat) (bs : List Byte) : Block :=
  { b with
    tileBad := clearTags b.tileBad ((List.range 16).map fun w => (t * 64 + i) * 16 + w)
    tile := writeTo b.tile (t * 8192 + i * 128) (bs ++ List.replicate (128 - bs.length) 0) }
def Block.setScale (b : Block) (t i j : Nat) (x : BitVec 16) : Block := { b with scale := put 0 b.scale (t * 1024 + i * 16 + j) x }
/-- Writes the scale words of a row from the first on; the words of four that they fill hold no error any more (R213). -/
def Block.setScales (b : Block) (t i : Nat) (xs : List Nat) : Block :=
  let b := xs.zipIdx.foldl (fun b (x, j) => b.setScale t i j (BitVec.ofNat 16 x)) b
  { b with scaleBad := clearTags b.scaleBad ((List.range (xs.length / 4)).map fun w => (t * 64 + i) * 4 + w) }
/-- Whether what an instruction reads of a tile has an uncorrectable error, in its rows or in their scale words (R213). -/
def Block.tileHit (b : Block) (t : Nat) (cfg : Word) : Bool := (List.range (cfgRows cfg)).any fun i =>
  (List.range ((rowBytes cfg + 7) / 8)).any (fun w => lookD false b.tileBad ((t * 64 + i) * 16 + w)) ||
    (List.range ((scalesPerRow cfg + 3) / 4)).any fun w => lookD false b.scaleBad ((t * 64 + i) * 4 + w)
def Block.cfg (b : Block) (t : Nat) : Word := lookD 0 b.tcfg t

/-- The bytes of a tile's image rows and scale area (R254). -/
def Block.imageRow (b : Block) (t : Nat) (cfg : Word) (i : Nat) : List Byte :=
  let n := cfgCols cfg * elemBits (cfgFormat cfg)
  leBytes (rowBytes cfg) (leNat ((b.tileRow t i).take (rowBytes cfg)) % 2 ^ n)
def Block.imageScales (b : Block) (t : Nat) (cfg : Word) (r : Nat) : List Byte :=
  let ws := (List.range r).flatMap fun i => (List.range (scalesPerRow cfg)).flatMap fun j => leBytes 2 (b.scaleAt t i j).toNat
  ws ++ List.replicate (scaleArea cfg r - ws.length) 0

/-- The elements of a row, each with its block's scale word above bit 16 for the SB formats. -/
def rowElems (cfg : Word) (row : List Byte) (scale : Nat → Nat) : List Nat :=
  let e := elemBits (cfgFormat cfg)
  (List.range (cfgCols cfg)).map fun j => elemAt row e j + (if isSb (cfgFormat cfg) then scale (j / 16) * 65536 else 0)

def Block.tileElems (b : Block) (t : Nat) (cfg : Word) : List (List Nat) :=
  (List.range (cfgRows cfg)).map fun i => rowElems cfg (b.tileRow t i) fun j => (b.scaleAt t i j).toNat

/-! ### Matrix arithmetic (R261 to R263) -/

/-- The value of element k of a row (R129, R132). An SB element with M = 0 is +0. -/
def elemVal (format k x : Nat) : FVal :=
  if isSb format then
    match sbValue (elemBits format - 1) (x / 65536) k (x % 65536) with
    | none => .nan
    | some (m, e) => .fin (decide (m < 0)) m.natAbs e
  else (match format with | 1 => bf16 | 2 => f16 | _ => f32).val x

/-- The exact product of two elements. -/
def prodVal : FVal → FVal → FVal
  | .nan, _ => .nan
  | _, .nan => .nan
  | .inf s, .inf t => .inf (s != t)
  | .inf s, .fin t n _ => if n == 0 then .nan else .inf (s != t)
  | .fin s m _, .inf t => if m == 0 then .nan else .inf (s != t)
  | .fin s m e, .fin t n k => .fin (s != t) (m * n) (e + k)

/-- The exact sum of two values; a zero is −0 only when both are (R262). -/
def sumVal : FVal → FVal → FVal
  | .nan, _ => .nan
  | _, .nan => .nan
  | .inf s, .inf t => if s == t then .inf s else .nan
  | .inf s, .fin .. => .inf s
  | .fin .., .inf t => .inf t
  | .fin s m e, .fin t n k =>
    let q := min e k
    let x := signedInt s (m * 2 ^ (e - q).toNat) + signedInt t (n * 2 ^ (k - q).toNat)
    .fin (if x = 0 then s && t && m == 0 && n == 0 else decide (x < 0)) x.natAbs q

/-- The group sum, scaled by 2^bias × sgn and rounded once (R262). -/
def groupSum (bias : Int) (neg : Bool) (ps : List FVal) : Nat :=
  match ps with
  | [] => 0
  | p :: r =>
    match r.foldl sumVal p with
    | .nan => f32.nan
    | .inf s => f32.signed (s != neg) f32.inf
    | .fin s m e => if m == 0 then f32.signed (s != neg) 0 else f32.round 0 (s != neg) m (e + bias)

/-- The groups of a k range: runs of k with the same k div 16 (R262). -/
def kGroups (first count : Nat) : List (List Nat) :=
  ((List.range ((first + count + 15) / 16)).map fun g => (List.range 16).map (· + 16 * g)).map (fun l =>
    l.filter fun k => decide (first ≤ k) && decide (k < first + count)) |>.filter fun l => !l.isEmpty

/-- One bank element's new value (R261 to R263). -/
def macElem (op : MatrixOp) (c : Word) (a b : List Nat) : Word :=
  let va := fun k => elemVal (cfgFormat op.cfgA) k (a.getD k 0)
  let vb := fun k => elemVal (cfgFormat op.cfgB) k (b.getD k 0)
  let ks := (List.range op.kCount).map (· + op.kFirst)
  if f32.isNan c.toNat || ks.any fun k => va k == .nan || vb k == .nan then w32 f32.nan
  else (kGroups op.kFirst op.kCount).foldl (fun c g =>
    w32 (f32.add 0 c.toNat (groupSum op.bias op.neg (g.map fun k => prodVal (va k) (vb k))))) c

/-! ### Banks (R268) -/

def BankInfo.none : BankInfo := { alloc := false, cause := 0, addr := 0 }
def Block.bankI (b : Block) (d : Nat) : BankInfo := lookD BankInfo.none b.bankInfo d
def Block.setBank (b : Block) (d : Nat) (x : BankInfo) : Block := { b with bankInfo := put BankInfo.none b.bankInfo d x }
/-- A bank element; an unallocated bank reads +0.0 (R208). -/
def Block.elem (b : Block) (d r c : Nat) : Word := if (b.bankI d).alloc then lookD 0 b.bank (d * 4096 + r * 64 + c) else 0
def Block.setElem (b : Block) (d r c : Nat) (x : Word) : Block := { b with bank := put 0 b.bank (d * 4096 + r * 64 + c) x }
def Block.zeroBank (b : Block) (d : Nat) : Block := { b with bank := b.bank.filter fun e => e.1 / 4096 != d }
/-- A read of a bank: of an unallocated one sets ACCSTAT.UNALLOC (R208). -/
def Block.bankRead (b : Block) (d : Nat) : Block := if (b.bankI d).alloc then b else { b with accstat := true }

/-- Whether a matrix instruction into a bank has yet to complete (R266), and whether one naming a tile has yet to read it (R260). -/
def Ctx.bankBusy (c : Ctx) (d : Nat) : Bool := c.s.matrix.any fun o => o.block == c.g.block && o.bank == d
def Ctx.tileUnread (c : Ctx) (t : Nat) : Bool :=
  c.s.matrix.any fun o => o.block == c.g.block && !o.started && (o.ta == t || (o.tb == t && o.weights.isNone))

def Ctx.hasTile (c : Ctx) (t : Nat) : Bool := decide (t < c.blk.hdr.tiles)
def Ctx.hasBank (c : Ctx) (d : Nat) : Bool := decide (d < c.blk.hdr.banks)
def Ctx.setBlk (c : Ctx) (s : State) (f : Block → Block) : State := { s with blocks := modify s.blocks c.g.block f }
/-- Cause 49 with its reason in detail byte 0 (R257). -/
def bad49 (reason : Nat) : Act := .trap 49 0 reason

/-- A tile's configuration as an instruction that names the tile sees it: K2 code finds an SB tile unconfigured (R93). -/
def Ctx.cfg (c : Ctx) (t : Nat) : Word := if c.k2 && isSb (cfgFormat (c.blk.cfg t)) then 0 else c.blk.cfg t

/-- Formats a matrix instruction takes (R261). -/
def matFormat (f : Nat) : Bool := f == 1 || f == 2 || isSb f

/-- The first failure of a check over regions: cause and address. -/
def firstBad (rs : List (Nat × Nat)) (chk : Nat → Nat → Option (Nat × Nat)) : Option (Nat × Nat) :=
  (rs.find? fun r => (chk r.1 r.2).isSome).bind fun r => chk r.1 r.2

/-- The check of one region in a space: the flat space through a capability (orders 1 to 4), scratchpad, or window. -/
def Ctx.regionCheck (c : Ctx) (space : Nat) (cap : Cap) (perm : BitVec 8) (off size : Nat) : Option (Nat × Nat) :=
  if space == 0 then (check14 cap 0 perm off size).map fun cause => (cause, cap.at off)
  else match c.padPlace (space == 2) off size with
    | some _ => none
    | none => some (2, off)

/-! ### Tile instructions (R258 to R260) -/

/-- TCFG (R258). -/
def execTcfg (t : TReg) (b : Reg) (s : State) : Out :=
  issue s { also := fun c => c.hasTile t.toNat, srcs := [.s b.toNat 1 false] } fun c =>
    if !cfgOk c.k2 (c.sv b.toNat) then .trap 53 0 0
    else .done (c.setBlk c.s fun k => { k with tcfg := put 0 k.tcfg t.toNat (c.sv b.toNat) }) []

/-- The checks TLD and TST make (R259). -/
def Ctx.tileChecks (c : Ctx) (m : CReg) (cfg : Word) (perm : BitVec 8) (o p space : Nat) : Option Act :=
  let src := p / 2 ^ 31
  let p := p % 2 ^ 31
  if cfg == 0 then some (.trap 53 0 0)
  else if src == 1 && 2 ≤ m.toNat then some (bad49 8)
  else match firstBad (imageRegions cfg (cfgRows cfg) o p) (c.regionCheck space (c.cv m.toNat) perm) with
    | some (cause, addr) => some (.trap cause addr 0)
    | none =>
      if o % 16 != 0 || p % 16 != 0 then some (.trap 16 (if space == 0 then (c.cv m.toNat).at o else o) 0)
      else if 1 < cfgRows cfg && p < rowBytes cfg then some (bad49 3)
      else none

/-- The space an image operand names: 0 flat, 1 scratchpad, 2 window (R259). -/
def imageSpace (m : CReg) (p : Word) : Nat := if p.msb then (if m == 0 then 1 else 2) else 0

/-- TLD (R259). The split is held while an earlier reader or load of the tile is outstanding (R260). -/
def execTld (m : CReg) (t : TReg) (b : Reg) (s : State) : Out :=
  issue s { wf := even b, also := fun c => c.hasTile t.toNat,
            srcs := [.s b.toNat 2 false, .c m.toNat fun c => imageSpace m (c.sv (b.toNat + 1)) == 0] } fun c =>
    let cfg := c.cfg t.toNat
    let o := (c.sv b.toNat).toNat
    let p := c.sv (b.toNat + 1)
    let space := imageSpace m p
    match c.tileChecks m cfg permR o p.toNat space with
    | some a => a
    | none =>
      if c.tileUnread t.toNat || !c.blk.tileFull t.toNat || c.loadWait then .stall
      else
        let s := c.setBlk c.s fun k => { k with tileEmpty := put false k.tileEmpty t.toNat true }
        let (s, id) := s.newId
        let op : TileOp :=
          { core := c.core, part := c.pid, gang := c.gid, block := c.g.block, tile := t.toNat, cfg := cfg, space := space,
            cap := c.cv m.toNat, offset := o, pitch := p.toNat % 2 ^ 31, mask := c.active, pc := c.pc, word := c.word, pfx := c.pfxWord,
            issued := c.g.ticksWith c.active, next := 0, fault := none }
        .done { s with tileOps := set s.tileOps id op } []

/-- Cuts a byte run at line boundaries: pieces of address and bytes. -/
def linePieces : Nat → Nat → List Byte → List (Nat × List Byte)
  | 0, _, _ => []
  | n + 1, a, bs =>
    if bs.isEmpty then []
    else
      let k := 128 - a % 128
      (a, bs.take k) :: linePieces n (a + k) (bs.drop k)

/-- TST (R259): plain stores of each row and of the scale area. Those to scratchpads are made as it issues, after the accesses that a fence with
release orders before them (R241) and the tile loads that read there (R237). -/
def execTst (m : CReg) (t : TReg) (b : Reg) (s : State) : Out :=
  issue s { wf := even b, also := fun c => c.hasTile t.toNat,
            srcs := [.s b.toNat 2 false, .c m.toNat fun c => imageSpace m (c.sv (b.toNat + 1)) == 0] } fun c =>
    let cfg := c.cfg t.toNat
    let o := (c.sv b.toNat).toNat
    let p := c.sv (b.toNat + 1)
    let space := imageSpace m p
    match c.tileChecks m cfg permW o p.toNat space with
    | some a => a
    | none =>
      let r := cfgRows cfg
      let places := (imageRegions cfg r o (p.toNat % 2 ^ 31)).filterMap fun (off, n) => (c.padPlace (space == 2) off n).map fun x => (x, n)
      if !c.blk.tileFull t.toNat || c.mustWait || (space != 0 && (c.padWait || places.any fun (x, n) => c.padRead c.active [x] n)) then .stall
      else if c.blk.tileHit t.toNat cfg then .trap 20 0 0
      else
        let runs := (imageRegions cfg r o (p.toNat % 2 ^ 31)).zipIdx.map fun (x, i) =>
          (x.1, if i < r then c.blk.imageRow t.toNat cfg i else c.blk.imageScales t.toNat cfg r)
        let moved := c.s.count c.core c.pid 0x13 (runs.foldl (fun n x => n + x.2.length) 0)
        if space == 0 then
          let cap := c.cv m.toNat
          let (s, inst) := moved.newId
          .done (runs.foldl (fun s (off, bs) => (linePieces 20 (cap.at off) bs).foldl (fun s (a, ps) =>
            s.send (c.req inst 32 (.store ps) a ps.length cap [])) s) s) []
        else
          .done (runs.foldl (fun s (off, bs) =>
            match c.padPlace (space == 2) off bs.length with
            | some (id, k) => { s with blocks := modify s.blocks id fun x => x.padWrite k bs }
            | none => s) moved) []

/-! ### Matrix instructions (R261, R264, R265) -/

/-- Puts a matrix instruction in the engine's order of issue (R266). -/
def Ctx.startMatrix (c : Ctx) (d ta tb : Nat) (cfgA cfgB : Word) (kFirst kCount : Nat) (bias : Int) (neg : Bool)
    (weights : Option (Cap × Nat × Nat × Nat)) : Act :=
  let (s, id) := c.s.newId
  .done { s with matrix := s.matrix ++
    [{ id := id, core := c.core, part := c.pid, gang := c.gid, block := c.g.block, bank := d, ta := ta, tb := tb, cfgA := cfgA, cfgB := cfgB,
       kFirst := kFirst, kCount := kCount, bias := bias, neg := neg, weights := weights, started := false, rowsA := [], rowsB := [],
       fault := none }] } []

/-- What MMA and MMAQ check first (R261, R264). -/
def Ctx.mmaChecks (c : Ctx) (ta tb : Nat) (same : Bool) : Option Act :=
  let a := c.cfg ta
  let b := c.cfg tb
  if a == 0 || b == 0 then some (.trap 53 0 0)
  else if !matFormat (cfgFormat a) || !matFormat (cfgFormat b) || (same && cfgFormat a != cfgFormat b) then some (bad49 1)
  else if cfgCols a != cfgCols b then some (bad49 2)
  else none

/-- MMA (R261). -/
def execMma (tb ta : TReg) (d : CReg) (s : State) : Out :=
  issue s { coll := true, also := fun c => c.hasTile ta.toNat && c.hasTile tb.toNat && c.hasBank d.toNat } fun c =>
    match c.mmaChecks ta.toNat tb.toNat true with
    | some a => a
    | none =>
      if !(c.blk.bankI d.toNat).alloc then .trap 50 0 0
      else if !c.blk.tileFull ta.toNat || !c.blk.tileFull tb.toNat then .stall
      else
        let a := c.cfg ta.toNat
        c.startMatrix d.toNat ta.toNat tb.toNat a (c.cfg tb.toNat) 0 (cfgCols a) 0 false none

/-- MMAQ (R264): the k range, bias and sign come from the format block. -/
def execMmaq (f : CReg) (tb ta : TReg) (d : CReg) (s : State) : Out :=
  issue s { coll := true, k2 := false, also := fun c => c.hasTile ta.toNat && c.hasTile tb.toNat && c.hasBank d.toNat,
            srcs := [.s (4 * f.toNat) 4 false] } fun c =>
    match c.mmaChecks ta.toNat tb.toNat false with
    | some a => a
    | none =>
      let a := c.cfg ta.toNat
      let b := c.cfg tb.toNat
      let w := fun i => c.sv (4 * f.toNat + i)
      let first := (w 0).toNat
      let count := (w 1).toNat
      let bias := (w 2).toInt
      let sb := isSb (cfgFormat a) || isSb (cfgFormat b)
      if 512 ≤ first || 512 ≤ count || first % 16 != 0 || count == 0 || (sb && count % 16 != 0) || cfgCols a < first + count ||
          bias < -64 || 63 < bias || 2 ≤ (w 3).toNat then bad49 6
      else if !(c.blk.bankI d.toNat).alloc then .trap 50 0 0
      else if !c.blk.tileFull ta.toNat || !c.blk.tileFull tb.toNat then .stall
      else c.startMatrix d.toNat ta.toNat tb.toNat a b first count bias ((w 3).getLsbD 0) none

/-- MMA_S (R265). Of an image outside HBM the faulting address is its start (log 70). -/
def execMmaS (m : CReg) (a : Reg) (ta : BitVec 2) (d : CReg) (s : State) : Out :=
  issue s { coll := true, wf := even a, also := fun c => c.hasTile ta.toNat && c.hasBank d.toNat,
            srcs := [.s a.toNat 2 false, .c m.toNat] } fun c =>
    let cfg := c.cfg ta.toNat
    let o := (c.sv a.toNat).toNat
    let x := c.sv (a.toNat + 1)
    let p := 16 * (x.extractLsb' 16 16).toNat
    let n := (x.extractLsb' 0 7).toNat
    let cap := c.cv m.toNat
    if cfg == 0 then .trap 53 0 0
    else if !matFormat (cfgFormat cfg) then bad49 1
    else if x.extractLsb' 7 9 != 0 then bad49 4
    else if n == 0 || 64 < n then bad49 5
    else if 1 < n && p < rowBytes cfg then bad49 3
    else match firstBad (imageRegions cfg n o p) (c.regionCheck 0 cap permMS) with
      | some (cause, addr) => .trap cause addr 0
      | none =>
        if isHost cap.flat then .trap 3 (cap.at o) 0
        else if o % 16 != 0 then .trap 16 (cap.at o) 0
        else if !(c.blk.bankI d.toNat).alloc then .trap 50 0 0
        else if !c.blk.tileFull ta.toNat || c.mustWait then .stall
        else c.startMatrix d.toNat ta.toNat 0 cfg cfg 0 (cfgCols cfg) 0 false (some (cap, o, p, n))

/-! ### Accumulator instructions (R269 to R275) -/

/-- ACC_ALLOC (R269). -/
def execAccAlloc (d : CReg) (s : State) : Out :=
  issue s { also := fun c => c.hasBank d.toNat } fun c =>
    if (c.blk.bankI d.toNat).alloc then .done c.s []
    else if c.bankBusy d.toNat then .stall
    else .done (c.setBlk c.s fun k => (k.zeroBank d.toNat).setBank d.toNat { alloc := true, cause := 0, addr := 0 }) []

/-- ACC_FREE (R269). Earlier readers have taken their values at issue. -/
def execAccFree (d : CReg) (s : State) : Out :=
  issue s { also := fun c => c.hasBank d.toNat } fun c =>
    if c.bankBusy d.toNat then .stall
    else .done (c.setBlk c.s fun k => (k.zeroBank d.toNat).setBank d.toNat BankInfo.none) []

/-- ACC_ZERO (R269). -/
def execAccZero (d : CReg) (s : State) : Out :=
  issue s { also := fun c => c.hasBank d.toNat } fun c =>
    if !(c.blk.bankI d.toNat).alloc then .trap 50 0 0
    else if c.bankBusy d.toNat then .stall
    else .done (c.setBlk c.s fun k => (k.zeroBank d.toNat).setBank d.toNat { alloc := true, cause := 0, addr := 0 }) []

/-- ACC_RD (R270). A fault that the bank has recorded is reported late: the lanes resume after the instruction (R267, R359). -/
def execAccRd (f d : CReg) (b : Reg) (s : State) : Out :=
  issue s { also := fun c => c.hasBank d.toNat, srcs := [.s (4 * f.toNat) 2 false], dsts := [.v b.toNat 1] } fun c =>
    let row := (c.sv (4 * f.toNat)).toNat
    let col := (c.sv (4 * f.toNat + 1)).toNat
    let i := c.blk.bankI d.toNat
    if 64 ≤ row || 64 ≤ col then bad49 5
    else if c.bankBusy d.toNat then .stall
    else if i.alloc && i.cause != 0 then .call i.cause i.addr 0
    else
      let s := c.setBlk c.s fun k => k.bankRead d.toNat
      .done (c.sendLanes s (lanesOf c.live) [c.vk b.toNat] fun inst l =>
        { c.req inst l .onCore 0 4 Cap.null [.v (c.vk b.toNat)] with
          stage := .replied [c.blk.elem d.toNat row ((col + l) % 64)] false, acq := false }) []

/-- ACC_WR (R270). -/
def execAccWr (f d : CReg) (b : Reg) (s : State) : Out :=
  issue s { also := fun c => c.hasBank d.toNat, srcs := [.s (4 * f.toNat) 2 false, .v b.toNat 1 false .none] } fun c =>
    let row := (c.sv (4 * f.toNat)).toNat
    let col := (c.sv (4 * f.toNat + 1)).toNat
    let i := c.blk.bankI d.toNat
    if 64 ≤ row || 64 ≤ col then bad49 5
    else if !i.alloc then .trap 50 0 0
    else if c.bankBusy d.toNat then .stall
    else if i.cause != 0 then .done c.s []
    else .done (c.setBlk c.s fun k =>
      (lanesOf c.live).foldl (fun k l => k.setElem d.toNat row ((col + l) % 64) (c.v b.toNat .none l)) k) []

/-- ACC.DRAIN and ACC.DRAIN.ADD (R271 to R273): the band is read when the drain issues, after the matrix instructions into the bank have
completed. A drain whose failure has yet to trap still counts as in flight (log 93). -/
def drain (add : Bool) (m d : CReg) (b : Reg) (s : State) : Out :=
  issue s { wf := quad b, also := fun c => c.hasBank d.toNat,
            srcs := [.s b.toNat 4 false, .c m.toNat fun c => (c.sv (b.toNat + 3)).extractLsb' 7 2 == 0] } fun c =>
    let w := fun i => c.sv (b.toNat + i)
    let first := (w 0).toNat % 64
    let cols := ((w 1).extractLsb' 16 7).toNat
    let rows := ((w 1).extractLsb' 0 7).toNat
    let off := (w 2).toNat
    let pitch := 16 * ((w 3).extractLsb' 16 16).toNat
    let target := ((w 3).extractLsb' 7 2).toNat
    let noBar := (w 3).getLsbD 6
    let lvl := ((w 3).extractLsb' 4 2).toNat
    let idx := ((w 3).extractLsb' 0 4).toNat
    let declared := match lvl with
      | 0 => false
      | 1 => decide (idx < c.blk.hdr.blockBars)
      | 2 => decide (idx < c.blk.hdr.clusterBars)
      | _ => decide (idx < c.blk.hdr.gridBars)
    let cap := c.cv m.toNat
    if 64 ≤ (w 0).toNat || (w 1).extractLsb' 23 9 != 0 || (w 1).extractLsb' 7 9 != 0 || (w 3).extractLsb' 9 7 != 0 then bad49 4
    else if first % 8 != 0 || rows % 8 != 0 || cols % 8 != 0 || rows == 0 || cols == 0 || 64 < cols || 64 < first + rows then bad49 5
    else if pitch < 4 * cols then bad49 3
    else if target == 3 || (target != 0 && m != 0) || (noBar && (lvl != 0 || idx != 0)) || (!noBar && !declared) then bad49 8
    else match firstBad ((List.range rows).map fun i => (off + i * pitch, 4 * cols)) (c.regionCheck target cap permW) with
      | some (cause, addr) => .trap cause addr 0
      | none =>
        if off % 32 != 0 || pitch % 32 != 0 then .trap 16 (if target == 0 then cap.at off else off) 0
        else if c.s.drains.any fun (_, x) => x.block == c.g.block && x.bank == d.toNat && first < x.first + x.rows && x.first < first + rows then
          .trap 51 0 0
        else if c.bankBusy d.toNat || c.mustWait then .stall
        else
          let i := c.blk.bankI d.toNat
          let s := c.setBlk c.s fun k => k.bankRead d.toNat
          let (s, id) := s.newId
          let dr : Drain :=
            { core := c.core, part := c.pid, gang := c.gid, block := c.g.block, bank := d.toNat, first := first, rows := rows, cols := cols,
              space := target, cap := cap, offset := off, pitch := pitch, add := add, barrier := if noBar then none else c.s.barOf c.g.block lvl idx,
              data := (List.range rows).flatMap fun r => (List.range cols).map fun x => c.blk.elem d.toNat (first + r) x,
              next := 0, fault := if i.alloc && i.cause != 0 then some (i.cause, i.addr) else none, mask := c.active, pc := c.pc,
              word := c.word, issued := c.g.ticksWith c.active, wall := c.g.fenceOf c.active }
          .done { s with drains := set s.drains id dr } []

/-- ACC_DRAIN (R271). -/
def execAccDrain (c d : CReg) (b : Reg) (s : State) : Out := drain false c d b s

/-- ACC_DRAIN_ADD (R271, R274). -/
def execAccDrainAdd (c d : CReg) (b : Reg) (s : State) : Out := drain true c d b s

/-- Row i of a bank as an SB row: its bytes and scale words (R275). -/
def Block.quantRow (b : Block) (d : Nat) (cfg : Word) (i : Nat) : List Byte × List Nat :=
  let w := elemBits (cfgFormat cfg) - 1
  let qs := (List.range (cfgCols cfg / 16)).map fun j => quantBlock w ((List.range 16).map fun k => b.elem d i (16 * j + k))
  (packElems (w + 1) 128 (qs.flatMap (·.2)), qs.map (·.1))

/-- ACC_QUANT (R275). -/
def execAccQuant (d : CReg) (t : TReg) (s : State) : Out :=
  issue s { k2 := false, also := fun c => c.hasBank d.toNat && c.hasTile t.toNat } fun c =>
    let cfg := c.cfg t.toNat
    let i := c.blk.bankI d.toNat
    if cfg == 0 then .trap 53 0 0
    else if !isSb (cfgFormat cfg) || 64 < cfgCols cfg then bad49 7
    else if c.bankBusy d.toNat || c.tileUnread t.toNat || !c.blk.tileFull t.toNat then .stall
    else if i.alloc && i.cause != 0 then .call i.cause i.addr 0
    else .done (c.setBlk c.s fun k => (List.range (cfgRows cfg)).foldl (fun k r =>
      let (bs, scales) := c.blk.quantRow d.toNat cfg r
      (k.setRow t.toNat r bs).setScales t.toNat r scales) (k.bankRead d.toNat)) []

end Sys2Proof.Machine
end

