-- ==== Sys2Proof/Machine/Queue.lean ====
section
/-! DEFINITION. Queue registers and the submission of engine commands (15): the command words, footprints, checks, and the instructions
of major opcode 0x71. What an engine does with an accepted command stands in EngineEvents.lean. -/

namespace Sys2Proof.Machine

/-! ### Command words (R304, R307, R311) -/

/-- Bits hi down to lo of command word i. -/
def Engine.bits (e : Engine) (i hi lo : Nat) : Nat := (e.words.getD i 0).toNat / 2 ^ lo % 2 ^ (hi + 1 - lo)

def Engine.kind (e : Engine) : Nat := e.bits 0 63 58
def Engine.noBarrier (e : Engine) : Bool := e.bits 0 57 57 == 1
def Engine.lvl (e : Engine) : Nat := e.bits 0 56 55
def Engine.idx (e : Engine) : Nat := e.bits 0 54 51
def Engine.keepTags (e : Engine) : Bool := e.bits 0 50 50 == 1
def Engine.noRecord (e : Engine) : Bool := e.bits 0 49 49 == 1
def Engine.dstSpace (e : Engine) : Nat := e.bits 0 47 46
def Engine.srcSpace (e : Engine) : Nat := e.bits 0 45 44
/-- The offsets in words 1 and 2, and the length in word 3. -/
def Engine.o1 (e : Engine) : Nat := e.bits 1 39 0
def Engine.o2 (e : Engine) : Nat := e.bits 2 39 0
def Engine.len (e : Engine) : Nat := e.bits 3 39 0
/-- ROWS and ROW BYTES of COPY2D. -/
def Engine.rows2 (e : Engine) : Nat := e.bits 3 55 32
def Engine.rowBytes2 (e : Engine) : Nat := e.bits 3 23 0
/-- Element size and COUNT of GATHER and SCATTER (R309). -/
def Engine.elemSize (e : Engine) : Nat := 4 * 2 ^ e.bits 1 43 40
def Engine.count (e : Engine) : Nat := e.bits 3 63 40
/-- ROUTE, PEER, CHANNEL and CHUNK of a collective (R311). -/
def Engine.route (e : Engine) : Nat := e.bits 2 63 62
def Engine.peer (e : Engine) : Nat := e.bits 2 61 58
def Engine.channel (e : Engine) : Nat := e.bits 2 55 48
def Engine.chunk (e : Engine) : Nat := e.bits 3 47 40

/-- Whether a kind reads through SOURCE SPACE and SOURCE CAP, writes through DEST SPACE and DEST CAP, and uses AUX CAP (R304, R307). -/
def Engine.hasSrc (e : Engine) : Bool := e.kind != 4 && e.kind != 0x21
def Engine.hasDst (e : Engine) : Bool := e.kind != 0x20 && e.kind != 0x22
def Engine.hasAux (e : Engine) : Bool := e.kind == 3 || e.kind == 0x10 || e.kind == 0x11

/-- The queue that serves a kind (R307). -/
def queueOf (kind : Nat) : Option Nat :=
  if (1 ≤ kind && kind ≤ 6) then some 0
  else if kind == 0x10 || kind == 0x11 then some 1
  else if kind == 0x20 || kind == 0x21 || kind == 0x22 then some 2
  else none

/-! ### Tiles of a shaped tensor (R230, R308) -/

def Engine.sh (e : Engine) (i : Nat) : Nat := (e.shape.getD i 0).toNat
def Engine.shBase (e : Engine) : Nat := e.sh 0 + e.sh 1 % 256 * 2 ^ 32
def Engine.shFmt (e : Engine) : Nat := e.sh 6 % 16
def Engine.tileCount (e : Engine) : Nat := e.bits 3 39 32
def Engine.tileCol (e : Engine) : Nat := e.bits 3 31 16
/-- Rows and columns of tile k, clipped at the tensor's edge. -/
def Engine.tRows (e : Engine) (k : Nat) : Nat :=
  let tr := e.sh 5 / 2 ^ 16 % 128
  min tr (e.sh 4 - (e.bits 3 15 0 + k) * tr)
def Engine.tCols (e : Engine) : Nat :=
  let tc := e.sh 5 % 512
  min tc (e.sh 3 - e.tileCol * tc)
/-- Element bytes of an image row, and scale words per image row. -/
def Engine.tRowBytes (e : Engine) : Nat := (e.tCols * elemBits e.shFmt + 7) / 8
def Engine.tScales (e : Engine) : Nat := if isSb e.shFmt then e.tCols / 16 else 0
/-- The scale area of r rows, rounded up to 16 bytes (R254). -/
def Engine.tScaleArea (e : Engine) (r : Nat) : Nat := (2 * r * e.tScales + 15) / 16 * 16
/-- The rows a tile takes in the walk below: its rows, and for SB formats its scale area. -/
def Engine.tSteps (e : Engine) (k : Nat) : Nat := e.tRows k + (if isSb e.shFmt then 1 else 0)
/-- Where image k starts, and the source offset of its row i. -/
def Engine.tDst (e : Engine) (k : Nat) : Nat := e.o2 + 32 * k * e.bits 3 63 40
def Engine.tSrc (e : Engine) (k i : Nat) : Nat :=
  e.shBase + ((e.bits 3 15 0 + k) * (e.sh 5 / 2 ^ 16 % 128) + i) * e.sh 2 + e.tileCol * (e.sh 5 % 512) * elemBits e.shFmt / 8
/-- The source offset of scale word j of row i of tile k. -/
def Engine.tScaleSrc (e : Engine) (k i j : Nat) : Nat :=
  e.shBase + e.sh 4 * e.sh 2 +
    2 * (((e.bits 3 15 0 + k) * (e.sh 5 / 2 ^ 16 % 128) + i) * (e.sh 3 / 16) + e.tileCol * (e.sh 5 % 512) / 16 + j)

/-- The tile and step within it of a walk position. -/
def Engine.tAt (e : Engine) : Nat → Nat → Nat → Option (Nat × Nat)
  | 0, _, _ => none
  | n + 1, k, r => if r < e.tSteps k then some (k, r) else e.tAt n (k + 1) (r - e.tSteps k)

/-! ### Rows: the runs of bytes a command moves -/

/-- A run of bytes: its destination offset and length, and where bytes at a position come from: offset and length, or zeros. -/
structure Span where
  dst : Nat
  len : Nat
  src : Nat → Nat → List (Option Nat × Nat)

/-- Row r of a copying command (R307, R308); GATHER and SCATTER take the row's index x. -/
def Engine.run (e : Engine) (r x : Nat) : Option Span :=
  let plain := fun (s d n : Nat) => some { dst := d, len := n, src := fun p k => [(some (s + p), k)] : Span }
  match e.kind with
  | 1 => if r == 0 then plain e.o1 e.o2 e.len else none
  | 2 => if r < e.rows2 then plain (e.o1 + r * e.bits 1 63 40) (e.o2 + r * e.bits 2 63 40) e.rowBytes2 else none
  | 3 =>
    match e.tAt e.tileCount 0 r with
    | none => none
    | some (k, i) =>
      let n := e.tRows k
      if i < n then plain (e.tSrc k i) (e.tDst k + i * e.bits 2 63 40) e.tRowBytes
      else
        let b := e.tScales
        some { dst := e.tDst k + n * e.bits 2 63 40, len := e.tScaleArea n,
               src := fun p m => (List.range (m / 2)).map fun q =>
                 let w := p / 2 + q
                 (if w < n * b then some (e.tScaleSrc k (w / b) (w % b)) else none, 2) : Span }
  | 4 => if r == 0 then some { dst := e.o1, len := e.len, src := fun _ n => [(none, n)] } else none
  | 0x10 => if r < e.count then plain (e.o1 + x * e.elemSize) (e.o2 + r * e.elemSize) e.elemSize else none
  | 0x11 => if r < e.count then plain (e.o2 + r * e.elemSize) (e.o1 + x * e.elemSize) e.elemSize else none
  | _ => none

/-! ### Packets (R314, R338) -/

/-- Whether the context that a command belongs to occupies its core (R318). -/
def State.engineOn (s : State) (e : Engine) : Bool := (s.core e.core).occ == some e.part

/-- The flat address of the packet that a running command sends next: what its next sector reads, or what it writes where it reads none in the
flat space (log 42). -/
def Engine.head (e : Engine) : Option Nat :=
  let src := fun (o : Nat) => if e.srcSpace == 0 then some (e.src.at o) else none
  let dst := fun (o : Nat) => if e.dstSpace == 0 then some (e.dst.at o) else none
  let span := fun (x : Option Span) => x.bind fun x => (match x.src e.pos 2 with
    | (some o, _) :: _ => src o
    | _ => none).or (dst (x.dst + e.pos))
  match e.kind with
  | 5 => if e.buf.length < e.len then src (e.o1 + e.buf.length) else dst (e.o2 + e.pos)
  | 6 => if e.row == 0 then src e.o1 else if e.row == 1 then (src (e.o1 + 64 + e.pos)).or (dst (e.o2 + e.pos)) else dst (e.o2 + e.pos)
  | 0x10 => if e.buf.isEmpty then some (e.aux.at (e.len + 4 * e.row)) else span (e.run e.row (leNat e.buf))
  | 0x11 => if e.buf.isEmpty then some (e.aux.at (e.len + 4 * e.row)) else span (e.run e.row (leNat e.buf))
  | 0x20 => src (e.o1 + e.pos)
  | 0x21 => dst (e.o1 + e.pos)
  | _ => span (e.run e.row 0)

/-! ### Regions (R312) -/

/-- A region: 0 for the flat space or a block's number plus 1, its first byte and its size. -/
abbrev Region := Nat × Nat × Nat

def overlaps (a b : Region) : Bool := a.1 == b.1 && decide (a.2.1 < b.2.1 + b.2.2) && decide (b.2.1 < a.2.1 + a.2.2)

/-- How many bytes a space holds for a command: the capability's length, or the allocation's size. -/
def State.spaceLen (s : State) (e : Engine) (space : Nat) (cap : Cap) (off : Nat) : Nat :=
  if space == 0 then cap.len
  else if space == 1 then ((s.block e.block).map (·.padSize)).getD 0
  else match s.padPlace e.block true off 0 with
    | some (id, _) => off / 2 ^ 18 * 2 ^ 18 + ((s.block id).map (·.padSize)).getD 0
    | none => 0

/-- The read regions of a command as (through AUX, offset, size), those in its source space, and its write regions. -/
def Engine.auxReads (e : Engine) : List (Nat × Nat) :=
  if e.kind == 3 then [(e.o1, 32)] else if e.kind == 0x10 || e.kind == 0x11 then [(e.len, 4 * e.count)] else []

/-- The hull of runs given as offsets and sizes. -/
def hull (xs : List (Nat × Nat)) : List (Nat × Nat) :=
  let ys := xs.filter fun x => x.2 != 0
  match ys with
  | [] => []
  | y :: _ =>
    let lo := ys.foldl (fun m x => min m x.1) y.1
    let hi := ys.foldl (fun m x => max m (x.1 + x.2)) 0
    [(lo, hi - lo)]

def Engine.srcReads (s : State) (e : Engine) : List (Nat × Nat) :=
  match e.kind with
  | 1 => [(e.o1, e.len)]
  | 2 => [(e.o1, (e.rows2 - 1) * e.bits 1 63 40 + e.rowBytes2)]
  | 3 =>
    let ks := List.range e.tileCount
    hull (ks.map fun k => (e.tSrc k 0, (e.tRows k - 1) * e.sh 2 + e.tRowBytes)) ++
      hull (if e.tScales == 0 then [] else ks.map fun k =>
        (e.tScaleSrc k 0 0, e.tScaleSrc k (e.tRows k - 1) (e.tScales - 1) + 2 - e.tScaleSrc k 0 0))
  | 5 => [(e.o1, e.len)]
  | 6 => [(e.o1, 64 + e.len)]
  | 0x10 => [(e.o1, s.spaceLen e e.srcSpace e.src e.o1 - e.o1)]
  | 0x11 => [(e.o2, e.count * e.elemSize)]
  | 0x20 => [(e.o1, e.len)]
  | 0x22 => [(e.o1, e.len)]
  | _ => []

def Engine.dstWrites (s : State) (e : Engine) : List (Nat × Nat) :=
  match e.kind with
  | 1 => [(e.o2, e.len)]
  | 2 => [(e.o2, (e.rows2 - 1) * e.bits 2 63 40 + e.rowBytes2)]
  | 3 => hull ((List.range e.tileCount).map fun k =>
      let n := e.tRows k
      let p := e.bits 2 63 40
      (e.tDst k, if e.tScales == 0 then (n - 1) * p + e.tRowBytes else max (n * p + e.tScaleArea n) ((n - 1) * p + e.tRowBytes)))
  | 4 => [(e.o1, e.len)]
  | 5 => [(e.o2, 64 + e.len)]
  | 6 => [(e.o2, e.len)]
  | 0x10 => [(e.o2, e.count * e.elemSize)]
  | 0x11 => [(e.o1, s.spaceLen e e.dstSpace e.dst e.o1 - e.o1)]
  | 0x21 => [(e.o1, e.len)]
  | _ => []

/-- A region of a space as flat addresses or as bytes of one block's scratchpad. -/
def State.place (s : State) (e : Engine) (space : Nat) (cap : Cap) (x : Nat × Nat) : Option Region :=
  if space == 0 then some (0, cap.at x.1, x.2)
  else (s.padPlace e.block (space == 2) x.1 x.2).map fun (b, o) => (b + 1, o, x.2)

def State.reads (s : State) (e : Engine) : List Region :=
  (e.srcReads s).filterMap (s.place e e.srcSpace e.src) ++ e.auxReads.filterMap (s.place e 0 e.aux)
def State.writes (s : State) (e : Engine) : List Region := (e.dstWrites s).filterMap (s.place e e.dstSpace e.dst)

/-- Whether two commands conflict (R313). -/
def State.conflict (s : State) (a b : Engine) : Bool :=
  ((s.writes a).any fun x => (s.reads b ++ s.writes b).any (overlaps x)) || (s.reads a).any fun x => (s.writes b).any (overlaps x)

/-! ### The checks of a submission (R306) -/

/-- Orders 1 to 4 of R172, or the bounds of a scratchpad or window, over one region (R306 order 5). -/
def State.regionCode (s : State) (e : Engine) (space : Nat) (cap : Cap) (perm : BitVec 8) (x : Nat × Nat) : Option Nat :=
  if space == 0 then (check14 cap 0 perm x.1 x.2).map (· + 0x0400)
  else match s.padPlace e.block (space == 2) x.1 x.2 with
    | some _ => none
    | none => some 0x0402

/-- Whether an offset field lies beyond its space, for a region that runs to the space's end. -/
def State.beyond (s : State) (e : Engine) : Bool :=
  (e.kind == 0x10 && s.spaceLen e e.srcSpace e.src e.o1 < e.o1) || (e.kind == 0x11 && s.spaceLen e e.dstSpace e.dst e.o1 < e.o1)

/-- The bits of words 1 to 3 that a kind assigns (R307, R311). -/
def assigned (kind i : Nat) : BitVec 64 :=
  match kind, i with
  | 2, 1 => 0xFFFFFFFFFFFFFFFF
  | 2, 2 => 0xFFFFFFFFFFFFFFFF
  | 2, _ => 0x00FFFFFF00FFFFFF
  | 3, 1 => 0xFFFFFFFFFF
  | 3, _ => 0xFFFFFFFFFFFFFFFF
  | 4, 2 => 0xFFFFFFFFFFFFFFFF
  | 0x10, 1 => 0xFFFFFFFFFFF
  | 0x11, 1 => 0xFFFFFFFFFFF
  | 0x10, 3 => 0xFFFFFFFFFFFFFFFF
  | 0x11, 3 => 0xFFFFFFFFFFFFFFFF
  | 0x20, 2 => 0xFCFF000000000000
  | 0x21, 2 => 0xFCFF000000000000
  | 0x22, 2 => 0xFCFF000000000000
  | 0x20, 3 => 0xFFFFFFFFFFFF
  | 0x21, 3 => 0xFFFFFFFFFFFF
  | 0x22, 3 => 0xFFFFFFFFFFFF
  | _, _ => 0xFFFFFFFFFF

/-- Whether every field is within its range (R304, R307, R309, R311). slotted: the fields name the slots of a command block (R301). -/
def Engine.fieldsOk (e : Engine) (slotted : Bool) : Bool :=
  let f := fun hi lo => e.bits 0 hi lo
  let slot := fun used hi lo => !slotted || !used || f hi lo < 4
  let coll := e.kind == 0x20 || e.kind == 0x21 || e.kind == 0x22
  f 48 48 == 0 && e.dstSpace != 3 && e.srcSpace != 3 && (e.dstSpace == 0 || f 43 40 == 0) && (e.srcSpace == 0 || f 39 36 == 0) &&
    (e.hasSrc || (e.srcSpace == 0 && f 39 36 == 0)) && (e.hasDst || (e.dstSpace == 0 && f 43 40 == 0)) && (e.hasAux || f 35 32 == 0) &&
    !(e.keepTags && (e.kind == 4 || e.kind == 5 || e.kind == 6)) && (!e.noBarrier || f 56 51 == 0) &&
    slot (e.hasDst && e.dstSpace == 0) 43 40 && slot (e.hasSrc && e.srcSpace == 0) 39 36 && slot e.hasAux 35 32 &&
    ([1, 2, 3].all fun i => e.words.getD i 0 &&& ~~~assigned e.kind i == 0) &&
    (match e.kind with
      | 1 => e.len != 0
      | 2 => e.rows2 != 0 && e.rowBytes2 != 0
      | 3 => e.tileCount != 0
      | 4 => e.len != 0
      | 5 => 16 ≤ e.len && e.len % 16 == 0
      | 6 => 16 ≤ e.len && e.len % 16 == 0
      | 0x10 => e.bits 1 43 40 ≤ 9 && e.count != 0
      | 0x11 => e.bits 1 43 40 ≤ 9 && e.count != 0
      | _ => true) &&
    (!coll || (e.chunk ≤ 8 && e.len % 32 == 0 && e.route < 2 && (e.kind != 0x22 || e.route == 0) &&
      (if e.route == 1 then e.peer < 12
       else if e.kind == 0x22 then e.peer / 2 ^ dieOf e.core % 2 == 0
       else e.peer < 4 && e.peer != dieOf e.core)))

/-- Whether each tile a COPYTILE names starts inside the tensor (R308). -/
def Engine.tilesInside (e : Engine) : Bool :=
  decide (e.tileCol * (e.sh 5 % 512) < e.sh 3) &&
    decide ((e.bits 3 15 0 + e.tileCount - 1) * (e.sh 5 / 2 ^ 16 % 128) < e.sh 4)

/-- The alignment a kind requires (R306 order 6). -/
def Engine.aligned (e : Engine) : Bool :=
  match e.kind with
  | 3 => e.aux.at e.o1 % 32 == 0 && e.o2 % 16 == 0 && e.bits 2 63 40 % 16 == 0
  | 5 => e.o1 % 16 == 0 && e.o2 % 16 == 0
  | 6 => e.o1 % 16 == 0 && e.o2 % 16 == 0
  | 0x10 => e.o1 % min e.elemSize 32 == 0 && e.o2 % min e.elemSize 32 == 0 && e.len % 4 == 0
  | 0x11 => e.o1 % min e.elemSize 32 == 0 && e.o2 % min e.elemSize 32 == 0 && e.len % 4 == 0
  | _ => true

/-- Whether rows of n bytes at a, a + p, … (r of them) and at b, b + q, … (t of them) share a byte. -/
def rowsShare (a p r b q t n : Nat) : Bool :=
  (List.range r).any fun i =>
    let x := a + i * p
    let j := if q == 0 then 0 else (x + q - (b + n)) / q
    (List.range 3).any fun d => decide (j + d < t) && decide (b + (j + d) * q < x + n) && decide (x < b + (j + d) * q + n)

/-- The kind's own overlap rule (R306 order 8, R307, R308). The regions of R312 that a kind reads through AUX count as its source (log 107). -/
def State.overlapBad (s : State) (e : Engine) : Bool :=
  let hit := (s.writes e).any fun x => (s.reads e).any (overlaps x)
  match e.kind with
  | 2 =>
    let p := e.bits 1 63 40
    let q := e.bits 2 63 40
    (decide (1 < e.rows2) && decide (q < e.rowBytes2)) ||
      (hit && match s.place e e.srcSpace e.src (e.o1, 0), s.place e e.dstSpace e.dst (e.o2, 0) with
        | some a, some b => rowsShare a.2.1 p e.rows2 b.2.1 q e.rows2 e.rowBytes2
        | _, _ => true)
  | 3 =>
    let full := e.sh 5 / 2 ^ 16 % 128
    let scale := if isSb e.shFmt then (2 * full * (e.sh 5 % 512 / 16) + 15) / 16 * 16 else 0
    let size := if scale == 0 then (full - 1) * e.bits 2 63 40 + 16 * ((e.sh 5 % 512 * elemBits e.shFmt + 127) / 128)
      else full * e.bits 2 63 40 + scale
    (decide (1 < e.tileCount) && decide (32 * e.bits 3 63 40 < size)) || hit
  | _ => hit

/-- Orders 1 to 4 of R306, as far as they need no shape record. -/
def Engine.earlyCode (e : Engine) (queue : Nat) (slotted mayOpen : Bool) (blk : Block) : Option Nat :=
  let declared := match e.lvl with
    | 0 => false
    | 1 => decide (e.idx < blk.hdr.blockBars)
    | 2 => decide (e.idx < blk.hdr.clusterBars)
    | _ => decide (e.idx < blk.hdr.gridBars)
  if queueOf e.kind != some queue then some 0x0201
  else if !e.fieldsOk slotted then some 0x0202
  else if !e.noBarrier && !declared then some 0x0208
  else if (e.kind == 5 || e.kind == 6) && !mayOpen then some 0x0207
  else none

/-- The first failing check of R306 for a command, its shape record read where the kind has one: rec is an error where its read or its
tests failed, with the code. That a tile starts outside the tensor is found with the record, and comes ahead of the later orders
(R308). Without a record, order 5 is made of what does not rest on it: that the source and the destination may be used at all, and that the destination
offset lies inside (log 29). Of several capabilities that fail, the source is reported ahead of AUX and the destination last (log 105). -/
def State.submitCode (s : State) (e : Engine) (queue : Nat) (slotted mayOpen : Bool) (blk : Block) (rec_ : Except Nat Unit) : Option Nat :=
  let read := e.kind != 3 || (match rec_ with | .ok _ => true | .error _ => false)
  match e.earlyCode queue slotted mayOpen blk with
  | some c => some c
  | none =>
    if read && e.kind == 3 && !e.tilesInside then some 0x0202
    else
      let aux := (e.auxReads.filterMap (s.regionCode e 0 e.aux permR)).head?
      let srcs := if !e.hasSrc then [] else if read then e.srcReads s else [(0, 0)]
      let dsts := if !e.hasDst then [] else if read then e.dstWrites s else [(e.o2, 0)]
      let src := (srcs.filterMap (s.regionCode e e.srcSpace e.src permR)).head?
      let dst := (dsts.filterMap (s.regionCode e e.dstSpace e.dst permW)).head?
      match src with
      | some c => some c
      | none => match aux with
        | some c => some c
        | none => match dst with
          | some c => some c
          | none =>
            if s.beyond e then some 0x0402
            else if !e.aligned then some 0x0410
            else match rec_ with
              | .error c => some c
              | .ok _ => if s.overlapBad e then some 0x0206 else none

/-! ### Queues and records (R300, R305) -/

/-- A result record (R305). -/
def recordOf (tag code status kind : Nat) : BitVec 64 := BitVec.ofNat 64 (tag * 2 ^ 32 + code * 2 ^ 16 + status * 2 ^ 8 + kind)

def QReg.empty : QReg := { words := [], written := 0, results := [] }
def Gang.queue (g : Gang) (n : Nat) : QReg := lookD QReg.empty g.q n
def State.setQueue (s : State) (gid n : Nat) (f : QReg → QReg) : State :=
  { s with gangs := modify s.gangs gid fun g => { g with q := put QReg.empty g.q n (f (g.queue n)) } }

/-- Queues a result record; those of a gang that has ended are discarded (R63). -/
def State.postRecord (s : State) (gid n : Nat) (r : BitVec 64) : State := s.setQueue gid n fun q => { q with results := q.results ++ [r] }

/-- The commands of a gang's queue accepted and not complete. -/
def State.running (s : State) (gid n : Nat) : List (Nat × Engine) := s.engines.filter fun (_, e) => e.gang == gid && e.queue == n

/-- What step 1 of R300 finds: an entry free, a wait, or the queue full. -/
def State.queueStep1 (s : State) (gid n : Nat) (g : Gang) : Option Act :=
  let run := (s.running gid n).length
  if run + (g.queue n).results.length < 16 then none
  else if run != 0 then some .stall else some (.trap 54 0 0)

def Engine.barrier (s : State) (e : Engine) : Option BarRef := if e.noBarrier then none else s.barOf e.block e.lvl e.idx

/-- The scratchpad bytes a run writes, by line: block, line, bytes. -/
def State.linesOf (s : State) (e : Engine) (dst len : Nat) : List (Nat × Nat × Nat) :=
  match if e.dstSpace == 0 then none else s.padPlace e.block (e.dstSpace == 2) dst len with
  | none => []
  | some (b, o) => (unitsOf 128 o len).map fun l => (b, l, min (l * 128 + 128) (o + len) - max (l * 128) o)

/-- Joins byte counts of one line. -/
def addLines (xs ys : List (Nat × Nat × Nat)) : List (Nat × Nat × Nat) :=
  ys.foldl (fun xs (b, l, n) =>
    if xs.any fun (c, k, _) => c == b && k == l then xs.map fun (c, k, m) => if c == b && k == l then (c, k, m + n) else (c, k, m)
    else xs ++ [(b, l, n)]) xs

/-- The last n of the 32-bit indices of GATHER or SCATTER, as memory holds them and as far as orders 6 and 7 let them be read: the command fails at
the first that may not be (R175, R309, R317). none: a host page is being translated. -/
def State.indices (s : State) (e : Engine) : Nat → State × Option (List Nat)
  | 0 => (s, some [])
  | n + 1 =>
    let a := e.aux.at (e.len + 4 * (e.count - (n + 1)) : Nat)
    match s.reachFor e.gang e.core e.part e.aux.colour e.aux.gen false a 4 with
    | .wait s => (s, none)
    | .fail _ _ => (s.pageDone e.gang e.part a 4, some [])
    | .ok =>
      let s := s.pageDone e.gang e.part a 4
      if s.poisoned a 4 then (s, some [])
      else match s.indices e n with
        | (s, none) => (s, none)
        | (s, some xs) => (s, some (leNat (s.bytesAt (s.pasid e.part) a 4) :: xs))

/-- The indices of the elements that a command reaches: it fails at the first that lies outside its table (R309). -/
def State.reached (s : State) (e : Engine) (xs : List Nat) : List Nat :=
  let len := if e.kind == 0x10 then s.spaceLen e e.srcSpace e.src e.o1 else s.spaceLen e e.dstSpace e.dst e.o1
  xs.takeWhile fun x => x == 0xFFFFFFFF || decide (e.o1 + x * e.elemSize + e.elemSize ≤ len)

/-- Every run of a command, for the lines it will write; xs are the indices of a GATHER or SCATTER as they stand when it is accepted. Masked
elements write none (R309, R315; log 95). -/
def State.allLines (s : State) (e : Engine) (xs : List Nat) : List (Nat × Nat × Nat) :=
  if e.dstSpace == 0 then []
  else match e.kind with
    | 0x10 => (s.reached e xs).zipIdx.foldl (fun ls (x, i) =>
        if x == 0xFFFFFFFF then ls else addLines ls (s.linesOf e (e.o2 + i * e.elemSize) e.elemSize)) []
    | 0x11 => (s.reached e xs).foldl (fun ls x =>
        if x == 0xFFFFFFFF then ls else addLines ls (s.linesOf e (e.o1 + x * e.elemSize) e.elemSize)) []
    | 5 => s.linesOf e e.o2 (64 + e.len)
    | 6 => s.linesOf e e.o2 e.len
    | 0x21 => s.linesOf e e.o1 e.len
    | _ =>
      let n := match e.kind with
        | 2 => e.rows2
        | 3 => (List.range e.tileCount).foldl (fun n k => n + e.tSteps k) 0
        | _ => 1
      (List.range n).foldl (fun xs r => match e.run r 0 with
        | some x => addLines xs (s.linesOf e x.dst x.len)
        | none => xs) []

/-- Accepts a command: a SEAL takes its save counter (R310), and the lines it will write empty with one more pending writer
(R315). -/
def State.accept (s : State) (e : Engine) (xs : List Nat) : State :=
  let lines := s.allLines e xs
  let (s, counter) := if e.kind == 5 then
      let x := s.context e.part
      (s.setContext e.part { x with saveCounter := x.saveCounter + 1 }, x.saveCounter + 1)
    else (s, 0)
  let s := lines.foldl (fun s (b, l, _) => { s with blocks := modify s.blocks b fun k =>
    { k with padFar := if lookD 0 k.padWriters l == 0 then put false k.padFar l false else k.padFar,
             padEmpty := put false k.padEmpty l true, padWriters := put 0 k.padWriters l (lookD 0 k.padWriters l + 1) } }) s
  let (s, id) := s.newId
  { s with engines := set s.engines id { e with lines := lines, counter := counter, bar := e.barrier s } }

/-- The number of an address in the shape-record cache: that of the host window counts by PASID (R202, R243). -/
def State.shapeKey (s : State) (part a : Nat) : Nat := if isHost a then s.pasid part * 2 ^ 48 + a else a

/-- What reading a shape record through a die's shape-record cache gives (R231, R243): the state, and the record or a code. Orders 6 and 7 are
made of a record that the cache holds too (R18, R175, R246). none: the record's host page is being translated. -/
def State.readShape (s : State) (who core part : Nat) (c : Cap) (off : Nat) : State × Option (Except Nat (List Word)) :=
  let a := c.at off
  match s.shapes.find? fun (d, x, _) => d == dieOf core && x == s.shapeKey part a with
  | some (_, _, w) => (s, some (match (s.part part).bind fun p => s.check67 p c.colour c.gen false a 32 with
    | some (cause, _) => .error (0x0400 + cause)
    | none => .ok w))
  | none => match s.reachFor who core part c.colour c.gen false a 32 with
    | .wait s => (s, none)
    | .fail cause _ => (s.pageDone who part a 32, some (.error (0x0400 + cause)))
    | .ok =>
      let s := s.pageDone who part a 32
      if s.poisoned a 32 then (s, some (.error 0x0414))
      else
        let w := wordsOf 8 (s.bytesAt (s.pasid part) a 32)
        let s := (s.touchRun a 32 part false).carry part a 32
        ({ s with shapes := s.shapes ++ [(dieOf core, s.shapeKey part a, w)] }, some (.ok w))

/-- Checks a command whose words and capabilities have been read, and accepts or rejects it (R300 steps 3 and 4, R306). done is what the go
leaves behind once the command is decided; while a host page of its shape record, or of the indices that say which lines it writes, is being
translated nothing is. The record is read once the
orders before its own have passed. -/
def Ctx.submit (c : Ctx) (done : State → State) (s : State) (queue : Nat) (words : List (BitVec 64)) (caps : Nat → Cap)
    (slotted mayOpen : Bool) : Act :=
  let e0 : Engine :=
    { core := c.core, part := c.pid, gang := c.gid, block := c.g.block, queue := queue, words := words, src := Cap.null, dst := Cap.null,
      aux := Cap.null, stage := .accepted, row := 0, pos := 0, buf := [], lines := [], counter := 0, mates := [], shape := [], bar := none }
  let e := { e0 with src := caps (e0.bits 0 39 36), dst := caps (e0.bits 0 43 40), aux := caps (e0.bits 0 35 32) }
  let settle := fun (s : State) (e : Engine) (r : Except Nat Unit) =>
    match (done s).submitCode e queue slotted mayOpen c.blk r with
    | none =>
      if (e.kind == 0x10 || e.kind == 0x11) && e.dstSpace != 0 then
        match s.indices e e.count with
        | (s, none) => .again s c.active
        | (s, some xs) => .done ((done s).accept e xs) []
      else .done ((done s).accept e []) []
    | some code =>
      let s := (done s).postRecord c.gid queue (recordOf (e.bits 0 31 0) code 3 e.kind)
      match e.barrier s with
      | some b => .done (s.barFail b (BitVec.ofNat 16 code)) []
      | none => .done s []
  if e.kind != 3 then settle s e (.ok ())
  else if (e.earlyCode queue slotted mayOpen c.blk).isSome || (check14 e.aux 0 permR e.o1 32).isSome || !e.aligned then settle s e (.error 0x0434)
  else match s.readShape c.gid c.core c.pid e.aux e.o1 with
    | (s, none) => .again s c.active
    | (s, some (.error code)) => settle s e (.error code)
    | (s, some (.ok w)) =>
      let e := { e with shape := w }
      settle s e (if (shapeBad w).isSome then .error 0x0434 else .ok ())

/-! ### Meanings -/

/-- QW (R299). On q3 it is illegal (R298). -/
def execQw (w q : BitVec 2) (a : Reg) (s : State) : Out :=
  issue s { wf := q != 3 && even a, srcs := [.s a.toNat 2 false] } fun c =>
    .done (c.s.setQueue c.gid q.toNat fun x =>
      { x with words := put 0 x.words w.toNat (c.sv (a.toNat + 1) ++ c.sv a.toNat), written := x.written ||| 1#4 <<< w.toNat }) []

/-- Whether a go of a queue whose words are all written names c register r in word 0 (R300, R304). -/
def Ctx.goNames (c : Ctx) (queue r : Nat) : Bool :=
  let x := c.g.queue queue
  let w := (lookD 0 x.words 0).toNat
  x.written == 0xF && [32, 36, 40].any fun i => w / 2 ^ i % 16 == r

/-- QGO (R300). -/
def execQgo (q : BitVec 2) (s : State) : Out :=
  issue s { wf := q != 3, srcs := (List.range 16).map fun r => .c r fun c => c.goNames q.toNat r } fun c =>
    let n := q.toNat
    let x := c.g.queue n
    match c.s.queueStep1 c.gid n c.g with
    | some a => a
    | none =>
      if c.s.openFor c.gid c.active then .stall
      else
        let clear := fun (s : State) => s.setQueue c.gid n fun x => { x with written := 0 }
        if x.written != 0xF then
          let w := if x.written.getLsbD 0 then lookD 0 x.words 0 else 0
          .done ((clear c.s).postRecord c.gid n (recordOf (w.toNat % 2 ^ 32) 0 2 (w.toNat / 2 ^ 58))) []
        else c.submit clear c.s n ((List.range 4).map fun i => lookD 0 x.words i) c.cv false (c.sp.mode != .u)

/-- QGO_C (R301). A record of a failed command capability has TAG and KIND free: no word of the block has been read. -/
def execQgoC (q : BitVec 2) (m : CReg) (s : State) : Out :=
  issue s { wf := q != 3 } fun c =>
    let n := q.toNat
    let x := c.cv m.toNat
    let reject := fun (code : Nat) =>
      let free : BitVec 38 := Config.freeValue c.s.fresh
      Act.done (({ c.s with fresh := c.s.fresh + 1 }.pageDone c.gid c.pid x.flat 96).postRecord c.gid n (recordOf (free.toNat / 64) code 3 (free.toNat % 64))) []
    match c.s.queueStep1 c.gid n c.g with
    | some a => a
    | none =>
      if c.s.openFor c.gid c.active then .stall
      else if !x.tag then reject 0x0401
      else if x.type != (if n == 2 then 2 else 1) then reject 0x0406
      else if !x.allows (permR ||| permLC) || x.allows (permW ||| permX) then reject 0x0403
      else if x.len < 96 then reject 0x0402
      else if x.flat % 32 != 0 then reject 0x0410
      else match c.s.reachFor c.gid c.core c.pid x.colour x.gen false x.flat 96 with
        | .wait s => .again s c.active
        | .fail cause _ => reject (0x0400 + cause)
        | .ok =>
          if c.s.poisoned x.flat 96 then reject 0x0414
          else
            let bs := c.s.bytesAt (c.s.pasid c.pid) x.flat 96
            let words := (List.range 4).map fun i => BitVec.ofNat 64 (leNat ((bs.drop (8 * i)).take 8))
            let slot := fun i => (⟨BitVec.ofNat 128 (leNat ((bs.drop (32 + 16 * i)).take 16)), c.s.tagAt (x.flat + 32 + 16 * i)⟩ : Cap)
            c.submit id (((c.s.pageDone c.gid c.pid x.flat 96).touchRun x.flat 96 c.pid false).carry c.pid x.flat 96) n words slot true (c.sp.mode != .u || x.allows permSYS)

/-- Whether a record of a gang's queue has yet to come to registers of some lanes. -/
def Req.recordOf (r : Req) (gid q : Nat) (m : Mask) : Bool := r.gang == gid && r.touches m && r.acc == .record q

/-- QRD (R302): the destinations empty as it issues. A waiting record leaves the queue and is on its way to them (R57); while none waits, or an
earlier QRD of the gang still waits for one, the split parks until its record has come (log 55). -/
def execQrd (q : BitVec 2) (toS : Bool) (b : Reg) (s : State) : Out :=
  issue s { wf := q != 3 && even b, dsts := if toS then [.s b.toNat 2] else [.v b.toNat 2] } fun c =>
    let keys := if toS then [c.sk b.toNat, c.sk (b.toNat + 1)] else [c.vk b.toNat, c.vk (b.toNat + 1)]
    let dests := keys.map fun k => if toS then Dest.s k else Dest.v k
    let empty := fun (g : Gang) => keys.foldl (fun g k => if toS then g.emptyS k else g.emptyV k c.active) g
    let emptied : State := { c.s with gangs := modify c.s.gangs c.gid empty }
    match (c.g.queue q.toNat).results, c.s.reqs.any fun (_, r) => r.recordOf c.gid q.toNat (BitVec.allOnes 32) with
    | r :: rest, false =>
      let (s, inst) := (emptied.setQueue c.gid q.toNat fun x => { x with results := rest }).newId
      let words : List Word := [r.extractLsb' 0 32, r.extractLsb' 32 32]
      .done ((if toS then [32] else lanesOf c.active).foldl (fun s l =>
        s.send { c.req inst l .onCore 0 8 Cap.null dests with stage := .replied words false, acq := false }) s) []
    | _, _ =>
      let (s, inst) := emptied.newId
      .wait (s.send { c.req inst 32 (.record q.toNat) 0 0 Cap.null dests with stage := .waiting, acq := false }) (.queue q.toNat c.next) []

/-- QSTAT (R303). -/
def execQstat (q : BitVec 2) (b : Reg) (s : State) : Out :=
  issue s { dsts := [.s b.toNat 1] } fun c =>
    let x := c.g.queue q.toNat
    c.writeS b.toNat (if q == 3 then BitVec.ofNat 32 ((c.s.core c.core).outbound.length * 256)
      else BitVec.ofNat 32 (x.results.length * 65536 + (c.s.running c.gid q.toNat).length * 256 + x.written.toNat))

end Sys2Proof.Machine
end

