-- ==== Sys2Proof/Machine/Ready.lean ====
section
/-! DEFINITION. Which gangs and splits may issue (R41, R51, R334, R335). -/

namespace Sys2Proof.Machine

/-- Whether a split is parked (R41). One whose barrier wait is over, and only its register still to come, is not (R58). -/
def Split.isParked (sp : Split) : Bool :=
  match sp.run with
  | .parked (.fill _) => false
  | .parked _ => true
  | _ => false

/-- Whether a partition's work goes on on a core: its context occupies the core, and no halt of the slice end, of PHALT or on the spot has
begun (R47, R364, R372). -/
def State.runsOn (s : State) (part core : Nat) : Bool :=
  (s.core core).occ == some part && !(s.core core).halting && ((s.part part).map fun p => !p.broken && !p.halted) == some true

/-- The partition whose turn on a core comes after that of another (R369). -/
def State.nextTurn (s : State) (core after : Nat) : Option Nat :=
  (((List.range 64).map fun i => (after + 1 + i) % 64).filter fun n => match s.part n with
    | some p => p.inUse && !p.halted && p.coreSet.getLsbD core && (s.context n).state == 1
    | none => false).head?

/-- The end of a slice (R50, R369): SLICECLK clears, and the partition halts where another waits for the core. -/
def State.endSlice (s : State) (core part : Nat) : State :=
  let k := s.core core
  let next := s.nextTurn core part
  s.setCore core { k with sliceclk := put 0 k.sliceclk part 0, halting := next.isSome && next != some part }

/-- Whether the device holds a gang's part of the core: its partition's work goes on there, the gang is resident, and no block halt has
stopped it (R51). -/
def State.gangMoves (s : State) (gid : Nat) (g : Gang) : Bool :=
  match s.block g.block with
  | none => false
  | some b =>
    s.runsOn b.part b.core && g.place == .resident && !g.stopped &&
      (match b.halt with
        | none => true
        | some h => h.causes.any (fun x => x.1 == gid) || (!h.forever && g.skid < 8))

/-- Whether a split may issue. No core issues until a list with a hypervisor record has been applied since the last scrub (R416). -/
def State.mayIssue (s : State) (gid e : Nat) : Bool :=
  match s.gang gid with
  | none => false
  | some g => match look g.splits e with
    | none => false
    | some sp => s.hypSet && sp.run == .ready && s.gangMoves gid g

/-- The gangs of the context on a core that are older than a gang (R334, R335). -/
def State.olderGangs (s : State) (core : Nat) (g : Gang) : Nat :=
  (s.gangs.filter fun (_, h) => s.coreOf h == core && s.partOf h == s.partOf g && h.place == .resident && decide (h.order < g.order)).length

/-- Whether an instruction word makes an access that the damper limits (R335): the accesses of R218 to R225 but those to
scratchpads. -/
def damped (w : Word) : Bool :=
  let op := (w.extractLsb' 1 7).toNat
  let sub := (w.extractLsb' 20 8).toNat
  w.getLsbD 0 && (op == 0x47 || (0x61 ≤ op && op ≤ 0x6A) ||
    (op == 0x6D && !(0x40 ≤ sub && sub ≤ 0x4A) && sub != 0x54 && sub != 0x55 && sub != 0x58))

/-- Whether the damper holds a gang's access. -/
def State.dampHeld (s : State) (g : Gang) : Bool :=
  let core := s.coreOf g
  decide ((s.core core).allow ≤ s.olderGangs core g)

end Sys2Proof.Machine
end

