-- ==== Sys2Proof/Machine/SplitEvents.lean ====
section
/-! DEFINITION. Steps of the device at a split: the ends of holds and waits (02), results that return (R57), rejections that arrive
(R174), traps that waited (R354), and block halts (R51). -/

namespace Sys2Proof.Machine

/-- A step that nothing in the state answers to leaves the state (log 7). -/
def ok (s : State) : Out := .next s

/-- Applies a change to the split of a device step, where the gang and the split stand. -/
def State.withSplit (s : State) (gid e : Nat) (f : Gang → Split → State) : Out :=
  match s.gang gid with
  | none => ok s
  | some g => match look g.splits e with
    | none => ok s
    | some sp => ok (f g sp)

/-! ### Ends of holds and waits -/

/-- JOIN_HOLD_END (R36 step 4). -/
def execJoinHoldEnd (g e : Nat) (s : State) : Out :=
  s.withSplit g e fun x sp =>
    if sp.run == .held 0 && s.gangMoves g x then s.updSplit g e fun x => { x with pc := x.pc + 4, run := .ready } else s

/-- Whether a split that a yielding split lets go first, named by its lowest lane, has had its opportunity: that lane has issued, or is in no
split that may issue (R160). -/
def State.hadTurn (s : State) (x : Nat × Nat × Nat) : Bool :=
  match s.gang x.1 with
  | some g => decide (x.2.2 < g.ticks.getD x.2.1 0) || !g.splits.any fun (e, sp) => sp.mask.getLsbD x.2.1 && s.mayIssue x.1 e
  | none => true

/-- YIELD_RELEASE (R160). -/
def execYieldRelease (g e : Nat) (s : State) : Out :=
  s.withSplit g e fun _ sp =>
    match sp.run with
    | .yielding limit owed =>
      if decide (limit ≤ s.clk.toNat) || owed.all s.hadTurn then s.updSplit g e fun x => { x with run := .ready } else s
    | _ => s

/-- PROGRESS_BOUND_EXPIRY (R42): the split's issue is the next move, and the damper does not hold it. -/
def execProgressBoundExpiry (g e : Nat) (s : State) : Out :=
  ok (if s.mayIssue g e then { s with urgent := some (g, e), agenda := .issue g e [] :: s.agenda } else s)

/-- An outstanding load to the host window of some lanes (R202). -/
def Req.hostLoad (r : Req) (gid : Nat) (m : Mask) : Bool :=
  r.gang == gid && r.touches m && isHost r.addr && (match r.acc with | .load _ _ => true | .loadCap _ => true | _ => false)

/-- Whether AMSEND finds an entry of the core's outbound queue that it may use (R340). -/
def State.canSend (s : State) (core : Nat) (handler : Bool) : Bool :=
  let q := (s.core core).outbound
  decide (q.length < 16) && (handler || decide ((q.filter fun m => !m.fromHandler).length < 12))

/-- Whether a phase word has yet to come to the register of a barrier wait of some lanes (R59). -/
def Req.phaseOf (r : Req) (gid : Nat) (m : Mask) : Bool := r.gang == gid && r.touches m && (match r.acc with | .phase _ => true | _ => false)

/-- Whether the condition that a parked split waits for is met (R41). One that comes back to a barrier wait may find that it is over. -/
def State.wakeMet (s : State) (gid : Nat) (g : Gang) (sp : Split) : Bool :=
  match sp.run with
  | .parked .met => true
  | .parked (.queue q _) => !s.reqs.any fun (_, r) => r.recordOf gid q sp.mask
  | .parked (.fill _) => !s.reqs.any fun (_, r) => r.phaseOf gid sp.mask
  | .parked (.barrier lvl idx _ _) => ((s.barRef gid g lvl idx).bind s.barGet).any fun b => waitOver b g (g.compat s) lvl idx sp.mask
  | .parked (.flue _) => !s.flueOps.any fun (_, o) => o.waitOf gid sp.mask
  | .parked (.waitmem _) => !s.reqs.any fun (_, r) => r.waitOf gid sp.mask && (r.isOpen || r.stage == .waiting)
  | .parked (.pad lines) => lines.all fun (b, l) => !((s.block b).map fun x => lookD false x.padEmpty l).getD false
  | .parked .host => !s.reqs.any fun (_, r) => r.hostLoad gid sp.mask
  | .parked .outbound => s.canSend (s.coreOf g) (((s.block g.block).map (·.handler)).getD false)
  | _ => false

/-- A split passes the instruction it waited in. -/
def State.passWait (s : State) (gid e : Nat) (next : Word) : State := s.updSplit gid e fun x => { x with pc := next, run := .ready }

/-- The oldest record of a result queue leaves it for the registers of a QRD: its low word goes to the first, its high word to the second
(R302). -/
def Gang.takeRecord (g : Gang) (q : Nat) (ds : List Dest) (m : Mask) : Gang :=
  match (g.queue q).results with
  | [] => g
  | r :: rest =>
    let g := { g with q := put QReg.empty g.q q { g.queue q with results := rest } }
    (ds.zip [r.extractLsb' 0 32, r.extractLsb' 32 32]).foldl (fun g (d, x) => match d with
      | .v k => g.setVs k (lanesOf m) fun _ => x
      | .s k => g.setS k x) g

/-- SPLIT_WAKE (R41): a split whose instruction has completed goes on; one that still has to execute its instruction executes it again.
WAITMEM completes here, as an acquire where its reads were (R224, R201). -/
def execSplitWake (gid e : Nat) (s : State) : Out :=
  s.withSplit gid e fun g sp =>
    if !s.wakeMet gid g sp || !s.gangMoves gid { g with stopped := false } then s
    else match sp.run with
      | .parked (.flue next) => s.passWait gid e next
      | .parked (.waitmem next) => (s.endWaits gid sp.mask).passWait gid e next
      | .parked (.queue _ next) => s.passWait gid e next
      | .parked (.fill next) => s.passWait gid e next
      | .parked (.barrier lvl idx key _) => (match (s.barRef gid g lvl idx).bind s.barGet with
        | some b => s.barPass gid e g sp b lvl idx key
        | none => s)
      | _ => s.updSplit gid e fun x => { x with run := .ready }

/-- Whether a rejection stands whose lanes a split holds that does not wait for a depth (R174). -/
def State.rejectionMoves (s : State) (gid : Nat) (g : Gang) : Bool :=
  s.rejected gid (g.splits.foldl (fun m (_, sp) => if sp.run == .parked .depth then m else m ||| sp.mask) 0)

/-- Whether an evicted or stopped gang has something to do: a split that is not parked or whose condition holds or whose record has come, one whose
trap finds its depth free, one whose loads to the host window find their pages, or a rejection whose trap can be taken (R46, R365). -/
def State.gangWakes (s : State) (gid : Nat) (g : Gang) : Bool :=
  !g.stopped && (s.rejectionMoves gid g || g.splits.any fun (_, sp) => match sp.run with
    | .parked .depth => (look g.traps (if sp.depth == 3 then 4 else sp.depth + 1)).isNone
    | .parked .host => s.reqs.all fun (_, r) => !r.hostLoad gid sp.mask ||
        (match s.reach r.core r.part r.cap.colour r.cap.gen false r.addr r.size with | .wait _ => false | _ => true)
    | .parked (.queue q _) => s.wakeMet gid g sp || !(g.queue q).results.isEmpty
    | .parked (.fill _) => true
    | .parked _ => s.wakeMet gid g sp
    | _ => true)

/-! ### Results that return -/

/-- Fills the registers of a reply in a lane (R57); a capability's tag goes with it (R220). -/
def Gang.deliver (g : Gang) (r : Req) (words : List Word) (tag : Bool) : Gang :=
  let g := (r.dests.zip words).foldl (fun g (d, x) => match d with
    | .v k => g.setV k r.lane x
    | .s k => g.setS k x) g
  match r.acc, r.dests with
  | .loadCap _, .v k :: _ =>
    { g with vTag := put 0 g.vTag (k / 4) (if tag then lookD 0 g.vTag (k / 4) ||| bit r.lane
        else lookD 0 g.vTag (k / 4) &&& ~~~bit r.lane) }
  | _, _ => g

/-- A reply fills its registers. A capability that has gone stale since it was read loses its tag (R387), and an acquire at cluster scope or
above has then invalidated the L1 (R201). -/
def State.deliver (s : State) (r : Req) (words : List Word) (tag : Bool) : State :=
  match s.gang r.gang with
  | none => s
  | some g =>
    let cap : Cap := ⟨words.getD 3 0 ++ words.getD 2 0 ++ words.getD 1 0 ++ words.getD 0 0, tag⟩
    let s := s.setGang r.gang (g.deliver r words (s.moved cap).tag)
    if r.acq && decide (3 ≤ r.level) then s.clearL1 r.core else s

/-- Whether a slice has a reply to send to a quad, and its raised slices in the order they were raised: the return channel of quad q is channel
128 + q (R336, R338). -/
def State.replyWaits (s : State) (quad slice : Nat) : Bool :=
  s.reqs.any fun (_, r) => r.core / 4 == quad && s.homeSlice r.addr == slice && (match r.stage, r.acc with
    | .replied _ _, .wait _ _ => false
    | .replied _ _, .onCore => false
    | .replied _ _, _ => true
    | _, _ => false)
def State.raisedReplies (s : State) (ch : Nat) : List Nat := (lookD [] s.raised ch).filter (s.replyWaits (ch - 128))

/-- Whether a reply waits for a raised slice to go first. -/
def State.replyOutranked (s : State) (r : Req) : Bool :=
  r.acc != .onCore && (match s.raisedReplies (128 + r.core / 4) with
    | [] => false
    | w :: _ => w != s.homeSlice r.addr)

/-- The split that an instruction holds goes on (R332, R372, R401). -/
def State.unhold (s : State) (gid : Nat) (m : Mask) : State :=
  { s with gangs := modify s.gangs gid fun g => { g with
      splits := g.splits.map fun (e, sp) => if sp.run == .busy && sp.mask &&& m != 0 then (e, { sp with run := .ready }) else (e, sp) } }

/-- A trigger joins its graph's queue of four; none while that is full (R332). -/
def State.joinGraph (s : State) (part graph : Nat) (patches : List (Nat × Nat × Word)) : Option State :=
  let key := part * 256 + graph
  match look s.graphs key with
  | none => some s
  | some g => if 4 ≤ g.triggers.length then none else some { s with graphs := set s.graphs key { g with triggers := g.triggers ++ [patches] } }

/-- What waits on the core itself: a QRD takes the oldest record of its queue, after the earlier QRDs of its gang (R302; log 55), and
the phase word of a barrier wait is written once its register has filled (R59, R252). A launch record enters its queue and a trigger joins its graph's once
there is an entry (R328, R332); PHALT ends once the context has left its cores (R372). -/
def State.coreReturn (s : State) (id : Nat) (r : Req) (g : Gang) : State :=
  let s' := { s with reqs := del s.reqs id }
  match r.acc, r.dests with
  | .record q, _ =>
    if (g.queue q).results.isEmpty || s.reqs.any fun (k, x) => decide (k < id) && x.recordOf r.gang q (BitVec.allOnes 32) then s
    else s'.setGang r.gang (g.takeRecord q r.dests r.mask)
  | .phase w, [.s key] => if g.sFull key then s'.deliver r [w] false else s
  | .enter rec_, _ => ((s'.unhold r.gang r.mask).enqueue r.part rec_).getD s
  | .join graph patches, _ => ((s'.unhold r.gang r.mask).joinGraph r.part graph patches).getD s
  | .phalt p cores, _ => if cores.any fun c => (s.core c).occ == some p then s else s'.unhold r.gang r.mask
  | _, _ => s

/-- LOAD_RETURN (R57). A reply whose seat has moved on to another context generation is discarded (R48); that of a gang that has ended has
no one left to read it. -/
def execLoadReturn (id : Nat) (s : State) : Out :=
  match look s.reqs id with
  | none => ok s
  | some r => match r.stage, r.acc with
    | .replied _ _, .wait _ _ => ok s
    | .replied words tag, _ =>
      let ch := 128 + r.core / 4
      let left := (lookD [] s.raised ch).filter fun w => s.replyWaits (r.core / 4) w && w != s.homeSlice r.addr
      let s' := { s with reqs := del s.reqs id, raised := if (lookD [] s.raised ch).isEmpty then s.raised else put [] s.raised ch left }
      if s.replyOutranked r then ok s
      else match s.gang r.gang with
      | none => ok s'
      | some g =>
        if lookD 0 (s.core r.core).ctxgen r.seat != r.gen then ok s'
        else if g.place != .resident || (s.core (s.coreOf g)).occ != some (s.partOf g) then ok s
        else ok (s'.deliver r words tag)
    | .waiting, _ => (match s.gang r.gang with
      | none => ok { s with reqs := del s.reqs id }
      | some g => ok (if g.place != .resident || (s.core (s.coreOf g)).occ != some (s.partOf g) then s else s.coreReturn id r g))
    | _, _ => ok s

/-! ### Rejections -/

/-- Whether a split waits for the depth of a trap that it has raised. -/
def State.waitsDepth (s : State) (gid e : Nat) : Bool := ((s.gang gid).bind fun g => look g.splits e).any fun sp => sp.run == .parked .depth

/-- A rejection as its trap frame records it: the rejected lanes with cause and address, the instruction, and the destinations that its
trap entry fills (R174, R357, R359). -/
structure Late where
  lanes  : List (Nat × Nat × Nat)
  pc     : Word
  word   : Word
  pfx    : Word
  issued : List Nat
  keys   : List Nat := []
  sfills : List Nat := []
  tile   : Option Nat := none
  inst   : Nat

/-- The split that takes the next trap for rejected lanes: the one that holds the lowest; none while that one waits for a depth or is not at an
instruction boundary (R174; log 58). -/
def Gang.lateSplit (g : Gang) (m : Mask) : Option (Nat × Split) :=
  match g.splits.filter fun (_, sp) => sp.mask &&& m != 0 with
  | [] => none
  | x :: r =>
    let y := r.foldl (fun a b => if lowest (b.2.mask &&& m) < lowest (a.2.mask &&& m) then b else a) x
    if y.2.run == .busy || y.2.only != 0 || y.2.run == .parked .depth then none else some y

/-- Where rejected lanes of a split go on, and whether the instruction that they stand at has issued in vain: those in WAITMEM, FLUE.WAIT or
BAR.WAIT execute it again, unless their own wait was rejected; an instruction that must not issue twice is left behind (R174, R359; log 58). -/
def Split.lateResume (sp : Split) (pc : Word) : Word × Nat :=
  match sp.run with
  | .parked (.waitmem a) => if sp.pc == pc then (a, 0) else (sp.pc, 1)
  | .parked (.flue a) => if sp.pc == pc then (a, 0) else (sp.pc, 1)
  | .parked (.queue _ a) => (a, 0)
  | .parked (.fill a) => (a, 0)
  | .parked (.barrier _ _ _ sync) => if sync then (sp.pc + 4, 0) else (sp.pc, 1)
  | _ => (sp.goesOn, 0)

/-- A rejection leaves, in the lanes whose trap has been taken: those of the instruction numbered inst, with the waits that the lanes were in (R174). -/
def State.dropRejected (s : State) (gid inst : Nat) (t : Mask) : State :=
  let tile := fun (x : Nat × TileOp) => if x.1 != inst then some x
    else if x.2.mask &&& ~~~t == 0 then none else some (x.1, { x.2 with mask := x.2.mask &&& ~~~t })
  let drain := fun (x : Nat × Drain) => if x.1 != inst then some x
    else if x.2.mask &&& ~~~t == 0 then none else some (x.1, { x.2 with mask := x.2.mask &&& ~~~t })
  { s with
    reqs := s.reqs.filterMap fun (id, q) =>
      if q.waitOf gid t then none
      else if q.inst != inst || q.gang != gid then some (id, q)
      else match q.stage with
        | .rejected _ _ =>
          if q.lane < 32 then (if t.getLsbD q.lane then none else some (id, q))
          else if q.mask &&& ~~~t == 0 then none else some (id, { q with mask := q.mask &&& ~~~t })
        | _ => some (id, q)
    flueOps := s.flueOps.filter fun (_, o) => !o.waitOf gid t && (o.inst != inst || o.gang != gid || o.fault.isNone || !t.getLsbD o.lane)
    tileOps := s.tileOps.filterMap tile
    drains := s.drains.filterMap drain }

/-- Raises the trap of rejected lanes that stand in one split (R174, R359). The rejection stands until the trap is taken. -/
def State.lateTrap (s : State) (gid : Nat) (x : Late) : State :=
  match s.gang gid with
  | none => s
  | some g =>
    let m := x.lanes.foldl (fun m l => m ||| bit l.1) 0
    match if s.gangMoves gid g then g.lateSplit m else none with
    | none => s
    | some (e, sp) =>
      let t := sp.mask &&& m
      match x.lanes.find? (·.1 == lowest t) with
      | none => s
      | some (_, cause, addr) =>
        let (resume, again) := sp.lateResume x.pc
        let trap : PendingTrap :=
          { lanes := t, cause := cause, addr := addr, detail := 0, pc := x.pc, word := x.word, pfx := x.pfx, resume := resume,
            rest := sp.pc, stay := sp.pc, late := g.ticks.getD (lowest t) 0 - x.issued.getD (lowest t) 0 - again,
            fills := x.keys.map fun k => (k, t), sfills := x.sfills, tile := x.tile, inst := x.inst }
        let u := s.takeTrap gid e trap
        if u.waitsDepth gid e then u else u.dropRejected gid x.inst t

/-- The rejection of an access: the trap is taken when every access of the instruction has been accepted or rejected, but for a
WAITMEM, whose lanes trap one by one (R174, R224). -/
def State.rejectReq (s : State) (r : Req) : State :=
  let mine := s.reqs.filter fun (_, q) => q.inst == r.inst && q.gang == r.gang
  let isWait := match r.acc with | .wait _ _ => true | _ => false
  if !isWait && mine.any fun (_, q) => q.inFlight then s
  else
    let bad := mine.flatMap fun (_, q) => match q.stage with
      | .rejected cause addr => (if q.lane < 32 then [q.lane] else lanesOf q.mask).map fun l => (l, cause, addr)
      | _ => []
    let late : Late :=
      { lanes := bad, pc := r.pc, word := r.word, pfx := r.pfx, issued := r.issued, keys := vKeys r.dests, sfills := sKeys r.dests, inst := r.inst }
    if (s.gang r.gang).isNone then { s with reqs := s.reqs.filter fun (_, q) => q.inst != r.inst || q.gang != r.gang } else s.lateTrap r.gang late

/-- The rejection of flue operations (R174, R283): taken when every operation of the instruction has been applied or rejected, but for a
FLUE.WAIT. -/
def State.rejectFlue (s : State) (o : FlueOp) : State :=
  let mine := s.flueOps.filter fun (_, q) => q.inst == o.inst && q.gang == o.gang
  let bad := mine.filterMap fun (_, q) => q.fault.map fun (cause, addr) => (q.lane, cause, addr)
  let isWait := match o.kind with | .wait _ _ => true | _ => false
  if !isWait && mine.any fun (_, q) => q.fault.isNone then s
  else s.lateTrap o.gang { lanes := bad, pc := o.pc, word := o.word, pfx := o.pfx, issued := o.issued, keys := vKeys o.dests, inst := o.inst }

/-- The steps of a tile load: its rows, and the scale area of the SB formats. -/
def TileOp.steps (t : TileOp) : Nat := (imageRegions t.cfg (cfgRows t.cfg) t.offset t.pitch).length

/-- The rejection of a tile load (R259), and of a drain without a barrier (R273). -/
def State.rejectTile (s : State) (id : Nat) (t : TileOp) : State :=
  match t.fault with
  | none => s
  | some (cause, addr) =>
    if t.next < t.steps then s
    else
      s.lateTrap t.gang { lanes := (lanesOf t.mask).map fun l => (l, cause, addr), pc := t.pc, word := t.word, pfx := t.pfx, issued := t.issued,
                          tile := some t.tile, inst := id }

def State.rejectDrain (s : State) (id : Nat) (d : Drain) : State :=
  match d.fault with
  | none => s
  | some (cause, addr) =>
    if d.barrier.isSome || d.next < d.sectors then s
    else
      s.lateTrap d.gang { lanes := (lanesOf d.mask).map fun l => (l, cause, addr), pc := d.pc, word := d.word, pfx := 0, issued := d.issued, inst := id }

/-- ACCESS_REJECTION (R174): one trap of one split for what the unit named by id rejected. -/
def execAccessRejection (id : Nat) (s : State) : Out :=
  match look s.reqs id with
  | some r => (match r.stage with
    | .rejected _ _ => ok (s.rejectReq r)
    | _ => ok s)
  | none => match look s.flueOps id with
    | some o => ok (if o.fault.isSome then s.rejectFlue o else s)
    | none => match look s.tileOps id with
      | some t => ok (s.rejectTile id t)
      | none => match look s.drains id with
        | some d => ok (s.rejectDrain id d)
        | none => ok s

/-! ### Traps and halts -/

/-- TRAP_ENTRY (R354, R355): a trap that waited for its depth is taken once the depth is free, and with it the rejection that it reports (R174). -/
def execTrapEntry (gid e : Nat) (s : State) : Out :=
  s.withSplit gid e fun g sp =>
    match sp.run, sp.trap with
    | .parked .depth, some t =>
      if !s.gangMoves gid g then s
      else
        let u := s.takeTrap gid e t
        if t.inst == 0 || u.waitsDepth gid e then u else u.dropRejected gid t.inst t.lanes
    | _, _ => s

/-- BLOCK_HALT (R51, R365): a gang that the halt reaches stops and writes its frame. -/
def execBlockHalt (gid : Nat) (s : State) : Out :=
  match s.gang gid with
  | none => ok s
  | some g => match s.block g.block with
    | none => ok s
    | some b => match b.halt with
      | none => ok s
      | some h =>
        if h.forever || g.stopped || h.causes.any (fun x => x.1 == gid) || (s.core b.core).occ != some b.part then ok s
        else
          ok ((s.setGang gid { g with stopped := true }).haltFrame gid 0 67)

end Sys2Proof.Machine
end

