-- ==== Sys2Proof/Machine/Place.lean ====
section
/-! DEFINITION. The dispatcher (16): checks of a launch, placement and completion of blocks, runs of task graphs (R29, R30, R249, R321 to
R325, R333), and the start of a gang. -/

namespace Sys2Proof.Machine

/-! ### Resources (R323, R324) -/

/-- The gangs that hold an ordinary seat of a core for a partition. -/
def State.seated (s : State) (part core : Nat) : List (Nat × Gang) :=
  s.gangs.filter fun (_, g) => s.partOf g == part && s.coreOf g == core && g.place == .resident && decide (g.seat < 32)

/-- The blocks of a partition on a core that have not completed. -/
def State.blocksOn (s : State) (part core : Nat) : List (Nat × Block) :=
  s.blocks.filter fun (_, b) => b.part == part && b.core == core && !b.handler && !b.done

/-- What is free on a core for a partition: seats, registers, scratchpad units, tiles and banks. -/
structure Free where
  seats : Nat
  regs  : Nat
  pad   : Nat
  tiles : Nat
  banks : Nat

def Free.empty : Free := { seats := 32, regs := 1024, pad := 64, tiles := 8, banks := 16 }

def State.free (s : State) (part core : Nat) : Free :=
  let gs := s.seated part core
  let bs := s.blocksOn part core
  let sum := fun (f : Header → Nat) => bs.foldl (fun n (_, b) => n + f b.hdr) 0
  { seats := 32 - gs.length
    regs := 1024 - gs.foldl (fun n (_, g) => n + ((s.block g.block).map (·.hdr.regs)).getD 0) 0
    pad := 64 - sum (·.scratch), tiles := 8 - sum (·.tiles), banks := 16 - sum (·.banks) }

/-- How many blocks of a kernel fit into what is free. -/
def Free.holds (f : Free) (h : Header) : Nat :=
  let per := fun (have_ need : Nat) => if need == 0 then 64 else have_ / need
  [per f.seats h.gangs, per f.regs (h.gangs * h.regs), per f.pad h.scratch, per f.tiles h.tiles, per f.banks h.banks].foldl min 64

/-- The seats a partition holds on all its cores. -/
def State.seatsUsed (s : State) (part : Nat) : Nat :=
  (s.gangs.filter fun (_, g) => s.partOf g == part && g.place == .resident && decide (g.seat < 32)).length

/-- Whether an evicted gang whose wake condition holds waits for a seat of a core: it comes back ahead of any new block (R46, R373). -/
def State.returning (s : State) (part core : Nat) : Bool :=
  s.gangs.any fun (k, g) => g.place == .evicted && s.coreOf g == core && s.partOf g == part && s.gangWakes k g

/-- Whether a block fits on a core (R324). -/
def State.fits (s : State) (pid : Nat) (p : Part) (h : Header) (core : Nat) : Bool :=
  p.coreSet.getLsbD core && s.runsOn pid core && !s.returning pid core && decide (1 ≤ (s.free pid core).holds h) &&
    decide (s.seatsUsed pid + h.gangs ≤ p.seatQuota)

/-- Of some cores, the one where the block fits with the most free seats, the lowest on a tie (R324). -/
def State.bestCore (s : State) (pid : Nat) (p : Part) (h : Header) (cores : List Nat) : Option Nat :=
  let xs := (cores.filter (s.fits pid p h)).map fun c => (c, (s.free pid c).seats)
  match xs with
  | [] => none
  | x :: r => some (r.foldl (fun a b => if a.2 < b.2 then b else a) x).1

/-- The cores of a cluster (R11). -/
def clusterCores (n : Nat) : List Nat := (List.range 64).map (· + 64 * n)

/-! ### Grid barriers (R249) -/

/-- Whether a launch or run holds a grid barrier. -/
def State.gridHeldNow (s : State) (p : Part) (i : Nat) : Bool :=
  match look p.gridHeld i with
  | none => false
  | some (l, none) => (look s.launches l).isSome
  | some (_, some n) => (lookD (Barrier.fresh 0) p.grid i).count == n

/-- Takes a grid barrier: all but PHASE starts anew, and every gang of the partition records its PHASE. -/
def State.gridTake (s : State) (pid i holder expected : Nat) (completion : Bool) : State :=
  match s.part pid with
  | none => s
  | some p =>
    let b := lookD (Barrier.fresh 0) p.grid i
    let b' := { Barrier.fresh expected with phase := b.phase, count := b.count }
    let s := s.setPart pid { p with
      grid := put (Barrier.fresh 0) p.grid i b', gridHeld := set p.gridHeld i (holder, if completion then some b.count else none) }
    { s with gangs := s.gangs.map fun (k, g) =>
        if s.partOf g != pid then (k, g)
        else (k, [0, 1].foldl (fun g u =>
          let key := barKey 3 i u
          { g with recorded := put false g.recorded key b.phase, arriving := del g.arriving key, arrived := del g.arrived key }) g) }

/-! ### Task graphs (R331, R333) -/

def Graph.preds (g : Graph) (n : Nat) : Nat := (g.edges.filter fun e => e.2 == n).length
def Graph.succs (g : Graph) (n : Nat) : List Nat := (List.range g.nodes.length).filter fun m => g.edges.contains (n, m)

/-- Lets the nodes whose count has reached zero enter their launch queues in order; one whose level is full stays, and those behind it go on
(R321, R333). -/
def State.graphEnter (s : State) (key : Nat) : State :=
  match look s.graphs key with
  | none => s
  | some g => g.waiting.foldl (fun s x =>
      match look s.graphs key, g.nodes[x]? with
      | some y, some rec_ => (match s.enqueue g.part { rec_ with addr := 0, node := some (g.number, x) } with
        | none => s
        | some s => { s with graphs := set s.graphs key { y with waiting := y.waiting.filter (· != x), entered := y.entered ++ [x] } })
      | _, _ => s) s

/-- Every graph of a partition lets its waiting nodes enter, in the order of the graphs' numbers; nodes go ahead of held launches (log 110). -/
def State.graphsEnter (s : State) (part : Nat) : State :=
  (s.graphs.filter fun (_, g) => g.part == part).foldl (fun s (k, _) => s.graphEnter k) s

/-- The end of a run: its COMPLETION barrier, and the host event (R333). -/
def State.graphEnd (s : State) (key : Nat) : State :=
  match look s.graphs key with
  | none => s
  | some g =>
    let ended := g.running && g.waiting.isEmpty && g.entered.all g.done.contains &&
      (g.failed.isSome || g.done.length == g.nodes.length)
    if !ended then s
    else
      let s := { s with graphs := set s.graphs key { g with running := false, failed := none } }
      let s := if 8 ≤ g.completion then s else match g.failed with
        | none => s.barArrive (.grid g.part g.completion) 1
        | some code => s.barFail (.grid g.part g.completion) code
      s.post 7 0 ((g.failed.map (·.toNat)).getD 0) 0 4 g.part

/-- A node of a run is done: its launch has completed, or R29 rejected it with a code. -/
def State.nodeDone (s : State) (part : Nat) (node : Option (Nat × Nat)) (code : Option (BitVec 16)) : State :=
  match node with
  | none => s
  | some (graph, n) =>
    let key := part * 256 + graph
    match look s.graphs key with
    | none => s
    | some g =>
      let failed := match g.failed with | some c => some c | none => code
      let counts := (g.succs n).foldl (fun m k => put 0 m k (lookD 0 m k - 1)) g.counts
      let ready := (g.succs n).filter fun k => lookD 0 counts k == 0
      let g := { g with done := g.done ++ [n], counts := counts, failed := failed,
                        waiting := if failed.isSome then [] else g.waiting ++ ready }
      ({ s with graphs := set s.graphs key g }.graphsEnter part).graphEnd key

/-- GRAPH_RUN_START (R333): the oldest trigger leaves its queue as its run starts (log 111): patches, counts, the COMPLETION barrier, and the nodes without predecessors. -/
def execGraphRunStart (pid n : Nat) (s : State) : Out :=
  let key := pid * 256 + n
  match look s.graphs key, s.part pid with
  | some g, some p => (match g.triggers with
    | [] => ok (s.graphEnter key)
    | patches :: rest =>
      if g.running || (g.completion < 8 && s.gridHeldNow p g.completion) then ok s
      else
        let nodes := patches.foldl (fun (ns : List LaunchRec) (node, off, v) => ns.zipIdx.map fun (r, i) =>
          if i == node then
            { r with bits := (r.bits &&& ~~~((BitVec.allOnes 32).zeroExtend 512 <<< (32 * off))) ||| (v.zeroExtend 512 <<< (32 * off)) }
          else r) g.nodes
        let g : Graph := { g with nodes := nodes, triggers := rest, running := true, entered := [], done := [], failed := none }
        let ids := List.range nodes.length
        let g : Graph := { g with counts := ids.foldl (fun m i => put 0 m i (g.preds i)) [], waiting := ids.filter fun i => g.preds i == 0 }
        let (s, id) := s.newId
        let s : State := { s with graphs := set s.graphs key g }
        let s := if g.completion < 8 then s.gridTake pid g.completion id 1 true else s
        ok (s.graphEnter key))
  | _, _ => ok s

/-! ### Dispatch (R29) -/

/-- Whether some cluster of the core set, taken as empty, could hold G blocks together (R29 0x010B). -/
def Part.groupFits (p : Part) (h : Header) (g : Nat) : Bool :=
  decide (g * h.gangs ≤ p.seatQuota) && (List.range 8).any fun k =>
    decide (g ≤ ((clusterCores k).filter p.coreSet.getLsbD).foldl (fun n _ => n + Free.empty.holds h) 0)

/-- The COMPLETION barrier of the run that a record's launch belongs to. -/
def State.runBarrier (s : State) (part : Nat) (r : LaunchRec) : Option Nat :=
  (r.node.bind fun x => look s.graphs (part * 256 + x.1)).bind fun (g : Graph) => if g.completion < 8 then some g.completion else none

/-- The checks of R29 after the header has been read, in order: the first that fails. -/
def State.launchCode (s : State) (pid : Nat) (p : Part) (r : LaunchRec) (w : List Word) : Option Nat :=
  let h := headerOf w
  let run := s.runBarrier pid r
  let raw := (w.getD 0 0).toNat
  if r.code.len < 16 + h.codeLen then some 0x0101
  else if h.gangs < 1 || 32 < h.gangs then some 0x0102
  else if h.regs < 8 || 64 < h.regs then some 0x0103
  else if 64 < h.scratch || 8 < h.tiles || 16 < h.banks then some 0x0104
  else if !(raw % 8 == 2 || raw % 8 == 3) || (h.compat && raw % 8 == 3) then some 0x0105
  else if 8 < h.gridBars || 16 < h.blockBars || 16 < h.clusterBars || (8 ≤ r.completion && r.completion < 15) || r.completion < h.gridBars then
    some 0x0106
  else if !r.clean || (w.getD 1 0).extractLsb' 16 2 != 0 || (w.getD 2 0).extractLsb' 24 8 != 0 || w.getD 3 0 != 0 then some 0x0107
  else if 16 + h.codeLen ≤ 16 + 2 * h.entry then some 0x0108
  else if r.blocks == 0 || 64 < r.group || (r.group != 0 && r.blocks % r.group != 0) then some 0x0109
  else if h.clusterBars != 0 && r.group == 0 then some 0x010A
  else if Free.empty.holds h == 0 || (r.group != 0 && !p.groupFits h r.group) then some 0x010B
  else if run.any fun b => decide (b < h.gridBars) || b == r.completion then some 0x010C
  else none

/-- What the read of a kernel header through a launch's code capability gives (R29 0x0101; log 33). -/
def State.readHeader (s : State) (pid : Nat) (p : Part) (c : Cap) : Except (Option State) (List Word) :=
  if !c.tag || !c.allows permX || c.type != 0 || c.len < 16 then .error none
  else match s.reachFor 0 ((List.range 512).find? p.coreSet.getLsbD |>.getD 0) pid c.colour c.gen false c.flat 16 with
    | .wait s => .error (some s)
    | .fail _ _ => .error none
    | .ok => if s.poisoned c.flat 16 then .error none else .ok (wordsOf 4 (s.bytesAt (s.pasid pid) c.flat 16))

/-- A header has been read through a launch's code capability: its line enters the shared cache (R200), and the reader waits no more. -/
def State.headerDone (s : State) (pid : Nat) (c : Cap) : State := (s.pageDone 0 pid c.flat 16).touchLine c.flat pid false

/-- Rejects the record at the head of a level (R29). The COMPLETION barrier of its own run ends with the run (R249). -/
def State.rejectLaunch (s : State) (pid : Nat) (p : Part) (level : Nat) (r : LaunchRec) (code : Nat) : State :=
  let s := s.setPart pid (p.setLevel level ((p.level level).drop 1))
  let s := if r.completion < 8 && s.runBarrier pid r != some r.completion then
      s.barFail (.grid pid r.completion) (BitVec.ofNat 16 code) else s
  (s.post 1 0 code r.addr 4 pid).nodeDone pid r.node (some (BitVec.ofNat 16 code)) |>.graphsEnter pid

/-- DISPATCH (R29, R322): the oldest record of the most urgent level that holds one. -/
def execDispatch (pid : Nat) (s : State) : Out :=
  match s.part pid with
  | none => ok s
  | some p =>
    if !p.inUse || p.serving.isSome then ok (s.graphsEnter pid)
    else match (List.range 8).find? fun l => !(p.level l).isEmpty with
      | none => ok s
      | some l => match (p.level l).head? with
        | none => ok s
        | some r => match s.readHeader pid p r.code with
          | .error (some s) => ok s
          | .error none => ok ((s.pageDone 0 pid r.code.flat 16).rejectLaunch pid p l r 0x0101)
          | .ok w =>
            let s := s.headerDone pid r.code
            match s.launchCode pid p r w with
            | some code => ok (s.rejectLaunch pid p l r code)
            | none =>
              let (s, id) := s.newId
              let x : Launch := { part := pid, record := r, hdr := headerOf w, next := 0, left := r.blocks, taken := false }
              ok ({ s with launches := set s.launches id x }.setPart pid { p with serving := some id })

/-! ### Placement (R30, R324) -/

/-- A gang as R30 starts it: its splits and its code capability. -/
def Gang.start (block index seat order : Nat) (compat : Bool) (entry : Nat) (code : Cap) : Gang :=
  let pc := BitVec.ofNat 32 (16 + 2 * entry)
  let sp := fun m => Split.start m pc .u 0 []
  { block := block, index := index, seat := seat, order := order, place := .resident, v := [], vEmpty := [], vTag := [], vBad := [], k := [], kBad := [], s := [],
    sEmpty := [], sBad := [], c := put Cap.null [] 1 code, cBad := [], q := [],
    splits := if compat then [(0, sp 0x0000FFFF), (1, sp 0xFFFF0000)] else [(0, sp (BitVec.allOnes 32))],
    ticks := [], fences := [], rels := [], spills := [], traps := [], exited := 0, clkHi := 0, enHi := 0, recorded := [], arriving := [], arrived := [],
    gangBar := Barrier.fresh (if compat then 2 else 1), stopped := false, skid := 0, record := none }

/-- A block as its placement leaves it (R30, R248). -/
def Block.start (launch part number core count : Nat) (group : Option (Nat × Nat)) (handler : Bool) (h : Header) : Block :=
  { launch := launch, part := part, number := number, core := core, group := group, handler := handler, hdr := h, gangsLeft := h.gangs,
    blockCount := count, pad := [], padTag := [], padEmpty := [], padWriters := [], padFar := [], padPoison := [], tile := [], scale := [], tileEmpty := [], tileBad := [], scaleBad := [],
    tcfg := [], bank := [], bankInfo := [], accstat := false,
    bars := (List.range h.blockBars).map fun i => (i, Barrier.fresh (if h.compat then 2 * h.gangs else h.gangs)), halt := none }

/-- Every gang starts with its record of each grid barrier at the barrier's PHASE (R249). -/
def Part.recorded (p : Part) : Store Bool :=
  (List.range 8).foldl (fun m i => [0, 1].foldl (fun m u =>
    put false m (barKey 3 i u) (lookD (Barrier.fresh 0) p.grid i).phase) m) []

/-- What a gang's start loads into c14 of the supervisor and hypervisor banks (R352, R442). -/
def State.vectors (s : State) (p : Part) (g : Gang) : Gang :=
  let sup := if s.ownArea p p.area 16 then s.capAt p.area else Cap.null
  { g with c := put Cap.null (put Cap.null g.c (cKey .s 14) sup) (cKey .h 14) s.hypRecord }

/-- A free ordinary seat of a core, the lowest (log 34). -/
def State.freeSeat (s : State) (part core : Nat) : Nat :=
  ((List.range 32).find? fun n => (s.seated part core).all fun x => x.2.seat != n).getD 0

/-- Places one block of a launch on a core: R30, and the acquire of its gangs' first instruction (R326, R201). -/
def State.placeBlock (s : State) (id : Nat) (x : Launch) (core : Nat) (group : Option (Nat × Nat)) : State :=
  let (s, bid) := s.newId
  let b := Block.start id x.part x.next core x.record.blocks group false x.hdr
  let s := s.setBlock bid b
  let s := (List.range x.hdr.gangs).foldl (fun s i =>
    let (s, gid) := s.newId
    let g := Gang.start bid i (s.freeSeat x.part core) gid x.hdr.compat x.hdr.entry x.record.code
    let g := { g with
      c := put Cap.null g.c 0 (if x.record.param.tag then x.record.param else Cap.null)
      recorded := ((s.part x.part).map (·.recorded)).getD [] }
    let g := match s.part x.part with
      | some p => s.vectors p g
      | none => g
    s.setGang gid ((List.range 4).foldl (fun g i => g.setS i (x.record.arg i)) g)) s
  { s with launches := set s.launches id { x with next := x.next + 1 } }.clearL1 core

/-- Places a cluster group's blocks within one cluster, if all fit together (R324). -/
def State.placeGroup (s : State) (pid : Nat) (p : Part) (id grp : Nat) (cores : List Nat) : Nat → Nat → Option State
  | 0, _ => some s
  | n + 1, rank =>
    match look s.launches id with
    | none => none
    | some x => match s.bestCore pid p x.hdr cores with
      | none => none
      | some c => (s.placeBlock id x c (some (grp, rank))).placeGroup pid p id grp cores n (rank + 1)

/-- A launch takes its grid barriers when its first block is placed (R249). -/
def State.takeBarriers (s : State) (pid id : Nat) (x : Launch) : State :=
  if x.taken then s
  else
    let gangs := if x.hdr.compat then 2 * x.hdr.gangs else x.hdr.gangs
    let s := (List.range x.hdr.gridBars).foldl (fun s i => s.gridTake pid i id (x.record.blocks * gangs) false) s
    let s := if x.record.completion < 8 then s.gridTake pid x.record.completion id x.record.blocks true else s
    { s with launches := set s.launches id { x with taken := true } }

/-- After a launch's last block is placed its record leaves its queue (R321, R322). -/
def State.served (s : State) (pid id : Nat) : State :=
  match s.part pid, look s.launches id with
  | some p, some x =>
    if x.next < x.record.blocks then s
    else
      let l := x.record.priority
      (s.setPart pid { p.setLevel l ((p.level l).erase x.record) with serving := none }).graphsEnter pid
  | _, _ => s

/-- The placement of the next block or cluster group of a launch, where there is room for it and its barriers are free (R249, R322, R324). -/
def State.placeNext (s : State) (pid : Nat) (p : Part) (id : Nat) (x : Launch) : Option State :=
  let need := (List.range x.hdr.gridBars) ++ (if x.record.completion < 8 then [x.record.completion] else [])
  if p.halted || (!x.taken && need.any (s.gridHeldNow p)) then none
  else if x.record.group == 0 then
    (s.bestCore pid p x.hdr (List.range 512)).map fun c => (s.takeBarriers pid id x).placeBlock id { x with taken := true } c none
  else
    let (t, grp) := (s.takeBarriers pid id x).newId
    let gangs := if x.hdr.compat then 2 * x.hdr.gangs else x.hdr.gangs
    let group : Group :=
      { launch := id, size := x.record.group,
        bars := (List.range x.hdr.clusterBars).map fun i => (i, Barrier.fresh (x.record.group * gangs)) }
    let t := { t with groups := set t.groups grp group }
    ((List.range 8).filterMap fun k => t.placeGroup pid p id grp (clusterCores k) x.record.group 0).head?

/-- BLOCK_PLACEMENT (R322, R324): the next block or cluster group of the record the dispatcher serves. -/
def execBlockPlacement (pid : Nat) (s : State) : Out :=
  match s.part pid with
  | none => ok s
  | some p => match p.serving.bind fun id => (look s.launches id).map fun x => (id, x) with
    | none => ok s
    | some (id, x) => match s.placeNext pid p id x with
      | some t => ok (t.served pid id)
      | none => ok s

/-! ### Completion (R159, R325) -/

/-- Whether a gang has ended and every outstanding return to it has arrived (R159). -/
def State.gangOver (s : State) (gid : Nat) (g : Gang) : Bool :=
  g.splits.isEmpty && g.exited == BitVec.allOnes 32 && g.traps.all (fun x => x.2.pending.isNone) &&
    !(s.reqs.any fun (_, r) => r.gang == gid) && !(s.flueOps.any fun (_, o) => o.gang == gid) &&
    s.cmdQueue.all fun l => (l.dest.map (·.1)) != some gid

/-- The lines of scratchpads, as block and offset, that a drain has yet to write (R271). -/
def State.drainPlaces (s : State) (d : Drain) : List (Nat × Nat) :=
  if d.space == 0 then [] else (List.range (d.rows * d.cols / 8)).filterMap fun i =>
    if i < d.next then none
    else s.padPlace d.block (d.space == 2) (d.offset + i / (d.cols / 8) * d.pitch + i % (d.cols / 8) * 32 : Nat) 32

/-- Whether an engine command or drain still writes to a block's scratchpad, or a pending writer count remains on its lines (R325). -/
def State.padBusy (s : State) (bid : Nat) (b : Block) : Bool :=
  !b.padWriters.isEmpty || s.drains.any fun (_, d) => (s.drainPlaces d).any fun x => x.1 == bid

/-- A launch whose last block has completed completes (R325, R333). -/
def State.launchDone (s : State) (id : Nat) : State :=
  match look s.launches id with
  | none => s
  | some x =>
    if 1 < x.left then { s with launches := set s.launches id { x with left := x.left - 1 } }
    else { s with launches := del s.launches id }.nodeDone x.part x.record.node none

/-- Whether a command or a drain of a block's gangs goes on (R318). -/
def State.blockNamed (s : State) (bid : Nat) : Bool :=
  (s.engines.any fun (_, e) => e.block == bid) || s.drains.any fun (_, d) => d.block == bid

/-- A block that has completed goes, and its group with the last of them; its entry stays while one of its commands or drains goes on (log 104). -/
def State.endBlock (s : State) (bid : Nat) (b : Block) : State :=
  if s.blockNamed bid then s.setBlock bid { b with gangsLeft := 0, done := true }
  else
    let s := { s with blocks := del s.blocks bid }
    match b.group with
    | some (grp, _) => if s.blocks.any fun x => (x.2.group.map Prod.fst) == some grp then s else { s with groups := del s.groups grp }
    | none => s

/-- BLOCK_COMPLETION (R325): seats free as their gangs end; when all have, the block's storage frees and its exit counts. -/
def execBlockCompletion (bid : Nat) (s : State) : Out :=
  match s.block bid with
  | none => ok s
  | some b =>
    if b.done then ok (s.endBlock bid b) else
    let ended := (s.gangsOf bid).filter fun (k, g) => s.gangOver k g
    let s := ended.foldl (fun s (k, _) => { s with gangs := del s.gangs k }) s
    if !(s.gangsOf bid).isEmpty || s.padBusy bid b then ok (s.setBlock bid { b with gangsLeft := (s.gangsOf bid).length })
    else
      let s := s.endBlock bid b
      if b.handler then ok s
      else
        let s := match (look s.launches b.launch).map (·.record.completion) with
          | some g => if g < 8 then s.barArrive (.grid b.part g) 1 else s
          | none => s
        ok (s.launchDone b.launch)

end Sys2Proof.Machine
end

