-- ==== Sys2Proof/Machine/Load.lean ====
section
/-! DEFINITION. A machine that is about to run one instruction: what stands for the host's load of a program (log 9). -/

namespace Sys2Proof.Machine

/-- The header of the kernel that stands for a loaded program: every resource that R25 lets a block declare. -/
def loadHeader : Header :=
  { compat := false, blockHalt := false, gangs := 1, regs := 64, scratch := 64, tiles := 8, banks := 16, revision := 3, blockBars := 16,
    clusterBars := 16, gridBars := 0, entry := 0, codeLen := 8 }

/-- The partition that runs it: index 0, colour 1, core 0, its context area at 0x400000. -/
def loadPart : Part :=
  { coreSet := 1, colour := 1, pasid := 1, savebase := 0x40, slicelen := 65536, keyFirst := 0, keyCount := 0, flueFirst := 0,
    flueCount := 4, extentQuota := 32, seatQuota := 32, lineQuota := 0, inUse := true, tvec := 0, halted := false, failed := none,
    broken := false, queues := [], serving := none, grid := [], gridHeld := [], handlers := [] }

/-- Its code capability: 24 bytes from 0x200000 on, R and X. -/
def loadCode : Cap := Cap.make 0x20000 24 (permR ||| permX) 1 0 0 true

/-- The partition's running context. -/
def loadContext : Context := { Context.none with state := 1 }

/-- Eight bytes of code stand behind the header; the partition owns the extents of its code and context area and holds core 0; a block of
one gang stands at the first instruction; and its issue is the next move. -/
def State.loaded (s : State) (code : List Byte) : State :=
  let owned : BitVec 64 := 0x4000000100000000
  let (s, grp) := s.newId
  let (s, bid) := s.newId
  let (s, gid) := s.newId
  let b := { Block.start 0 0 0 0 1 (some (grp, 0)) false loadHeader with gangsLeft := 1 }
  let g := Gang.start bid 0 0 gid false 0 loadCode
  let group : Group := { launch := 0, size := 1, bars := (List.range 16).map fun i => (i, Barrier.fresh 1) }
  { s with
    mem := writeTo s.mem 0x200010 code
    extents := (List.range 18).foldl (fun m i => put 0 m (i + 1) owned) s.extents
    parts := set s.parts 0 loadPart
    contexts := set s.contexts 0 loadContext
    cores := set s.cores 0 { Core.reset with occ := some 0, lastTurn := 0 }
    groups := set s.groups grp group
    blocks := set s.blocks bid b
    gangs := set s.gangs gid g
    hypSet := true
    agenda := [.issue gid 0 []]
    picks := [] }

end Sys2Proof.Machine
end

