-- ==== Sys2Proof/Machine/FlueEvents.lean ====
section
/-! DEFINITION. The grates of the flue pass the stops (14, R283 to R292). -/

namespace Sys2Proof.Machine

/-- The stop of a core, and the grate that stands at a stop (R278, R290). -/
def stopOf (core : Nat) : Nat := core / 4
def State.grateAt (s : State) (stop : Nat) : Nat := (stop + 128 - s.clk.toNat % 128) % 128

/-- How many slots an operation touches. -/
def FlueOp.width (o : FlueOp) : Nat :=
  match o.kind with
  | .cap n _ _ => n
  | _ => 1

/-- Whether an operation writes slots (R290). -/
def FlueOp.isWrite (o : FlueOp) : Bool :=
  match o.kind with
  | .peek => false
  | .wait _ _ => false
  | _ => true

/-- Whether an alighting has been applied at its slot and its store is on the way. -/
def FlueOp.away (o : FlueOp) : Bool :=
  match o.kind with
  | .alight sent => sent
  | _ => false

/-- Whether an operation that still stands has been applied: an alighting whose store is on the way, and a failed one. -/
def FlueOp.applied (o : FlueOp) : Bool := o.fault.isSome || o.away

/-- Whether two operations name a common slot. -/
def FlueOp.meets (o q : FlueOp) : Bool := decide (q.slot < o.slot + o.width) && decide (o.slot < q.slot + q.width)

/-- Whether an operation of an earlier instruction of the gang holds back a later one (R292): an `.ord` operation waits until every earlier one is
applied, an alighting until it is complete; nothing overtakes an `.ord` operation; and one lane's operations on one slot keep their order. The
lanes of one instruction are neither earlier nor later than one another (log 106). -/
def FlueOp.holds (q o : FlueOp) : Bool :=
  q.gang == o.gang && q.inst != o.inst && ((o.ord && q.fault.isNone) || (!q.applied && (q.ord || (q.lane == o.lane && o.meets q))))

/-- Whether an operation may be applied now: 4 clk after its issue, with its data, in the order of R292, and as a release after the lane's
earlier accesses (R244). -/
def State.flueReady (s : State) (id : Nat) (o : FlueOp) : Bool :=
  !o.applied && decide (o.clk + 4 ≤ s.clk.toNat) &&
    (match o.kind with | .board none => false | _ => true) &&
    !(s.flueOps.any fun (k, q) => decide (k < id) && q.holds o) &&
    !(o.rel && s.openBefore o.gang (bit o.lane) id)

/-- Whether a slot belongs to the partition of a colour (R281). -/
def State.ownsSlot (s : State) (colour : BitVec 8) (slot : Nat) : Bool :=
  s.parts.any fun (_, p) => p.inUse && p.colour == colour && decide (p.flueFirst ≤ slot) && decide (slot < p.flueFirst + p.flueCount)

/-- The slots of an operation. -/
def FlueOp.slots (o : FlueOp) : List Nat := (List.range o.width).map (· + o.slot)

/-- Why an operation fails at its stop: cause and slot number (R281, R283, R296). Of several slots that fail, the lowest-numbered is named, and
a slot that is not live comes before a poisoned one: the spec names no order (log 30). -/
def State.flueBad (s : State) (o : FlueOp) : Option (Nat × Nat) :=
  match o.slots.find? fun n => !s.ownsSlot o.colour n with
  | some n => some (4, n)
  | none => match o.kind with
    | .board _ => if (s.slot o.slot).state != 0 then some (56, o.slot) else none
    | .alight _ => if (s.slot o.slot).state != 1 then some (57, o.slot) else none
    | _ => match o.slots.find? fun n => (s.slot n).state != 1 with
      | some n => some (57, n)
      | none => (o.slots.find? fun n => (s.slot n).poison).map fun n => (20, n)

/-- Fails an operation: its registers stay empty until the trap (R283). -/
def State.failFlue (s : State) (id : Nat) (o : FlueOp) (f : Nat × Nat) : State :=
  { s with flueOps := set s.flueOps id { o with fault := some f } }

/-- Fills an operation's registers with words (R286, R287) and ends it; with .acq it is an acquire at device scope (R244, R201). -/
def State.endFlue (s : State) (id : Nat) (o : FlueOp) (words : List Word) : State :=
  let s := { s with
    flueOps := del s.flueOps id
    gangs := modify s.gangs o.gang fun g => (o.dests.zip words).foldl (fun g (d, x) => match d with
      | .v k => g.setV k o.lane x
      | .s k => g.setS k x) g }
  if o.acq then s.clearL1 o.core else s

/-- The words of a slot, word 0 in its low bits. -/
def Slot.words (x : Slot) : List Word := (List.range 4).map fun i => x.data.extractLsb' (32 * i) 32
def wordsTo128 (w : List Word) : BitVec 128 := w.getD 3 0 ++ w.getD 2 0 ++ w.getD 1 0 ++ w.getD 0 0

/-- A capture's new word (R286). -/
def capWord (op : Nat) (x y : Word) : Word :=
  match op with
  | 0 => x + y
  | 1 => iMinS x y
  | 2 => iMaxS x y
  | 3 => x &&& y
  | 4 => x ||| y
  | 5 => x ^^^ y
  | _ => y

/-- Serves a peek or a wait evaluation with the slot as it stands before the pass's write (R287, R288). The peek of a context that is off
the core is a request packet, to be made again when the context is back; a wait is evaluated on (R294). -/
def State.serveRead (s : State) (id : Nat) (o : FlueOp) : State :=
  if o.kind == .peek && (s.core o.core).occ != some o.part then s
  else match s.flueBad o, o.kind with
    | some f, _ => s.failFlue id o f
    | none, .peek => s.endFlue id o (s.slot o.slot).words
    | none, .wait ne cmp => if waitMet ne cmp ((s.slot o.slot).data.extractLsb' 0 32) then s.endFlue id o [] else s
    | none, _ => s

/-- Applies a write to its slots (R284 to R286). -/
def State.applyFlue (s : State) (id : Nat) (o : FlueOp) : State :=
  match s.flueBad o with
  | some f => s.failFlue id o f
  | none =>
    let s := s.count o.core o.part 0x0F 1
    match o.kind with
    | .board data =>
      (s.setSlot o.slot { state := 1, data := data.getD 0, home := BitVec.ofNat 48 o.addr, colour := o.cap.colour, gen := o.cap.gen,
                          poison := false }).endFlue id o []
    | .alight _ =>
      let r : Req :=
        { inst := o.inst, core := o.core, part := o.part, gang := o.gang, seat := ((s.gang o.gang).map (·.seat)).getD 0, lane := o.lane, mask := 0,
          acc := .alight id, addr := o.addr, size := 16, cap := o.cap, dests := [], scope := 0, acq := false, pc := o.pc, word := o.word,
          pfx := o.pfx, issued := o.issued, gen := o.gen, stage := .sent, wall := o.wall }
      let s := s.setSlot o.slot { s.slot o.slot with state := 2 }
      { s with flueOps := set s.flueOps id { o with kind := .alight true } }.send r
    | .cap n op data =>
      let old := o.slots.flatMap fun k => (s.slot k).words
      let new := if op == 7 then (if old == data.take (4 * n) then data.drop (4 * n) else old)
        else (old.zip data).map fun (x, y) => capWord op x y
      let s := o.slots.zipIdx.foldl (fun s (k, i) =>
        s.setSlot k { s.slot k with data := wordsTo128 ((new.drop (4 * i)).take 4) }) s
      s.endFlue id o old
    | _ => s

/-- The write that a stop grants a grate: the next core from its pointer with a ready write, and that core's oldest (R290). -/
def State.flueGrant (s : State) (stop grate : Nat) : Option (Nat × FlueOp) :=
  let ready := s.flueOps.filter fun (id, o) => stopOf o.core == stop && o.slot / 4 == grate && o.isWrite && s.flueReady id o
  let ptr := lookD 0 s.flueRr stop
  (((List.range 4).map fun i => (ptr + i) % 4).filterMap fun q => ready.find? fun (_, o) => o.core % 4 == q).head?

/-- One grate passes one stop: peeks and waits are served, then at most one write is applied (R287, R290, R291). -/
def State.flueVisit (s : State) (stop : Nat) : State :=
  let grate := s.grateAt stop
  let s := { s with fluePassed := stop :: s.fluePassed }
  let reads := s.flueOps.filter fun (_, o) => stopOf o.core == stop && o.slot / 4 == grate && !o.isWrite
  let s := reads.foldl (fun s (id, o) => if s.flueReady id o then s.serveRead id o else s) s
  match s.flueGrant stop grate with
  | none => s
  | some (id, o) => { s with flueRr := put 0 s.flueRr stop ((o.core % 4 + 1) % 4) }.applyFlue id o

/-- FLUE_PASS (R290): once per clk and stop. -/
def execFluePass (stop : Nat) (s : State) : Out :=
  ok (if 128 ≤ stop || s.fluePassed.contains stop then s else s.flueVisit stop)

/-- The live slots of a partition's range, whose grates are driven for it (R279, R396). -/
def State.liveSlots (s : State) (p : Part) : Nat :=
  (s.flue.filter fun (n, x) => x.state == 1 && decide (p.flueFirst ≤ n) && decide (n < p.flueFirst + p.flueCount)).length

/-- The passes still to be made in this clk at the stops with operations, and the clk's end. -/
def State.flueTick (s : State) : State :=
  let stops := (s.flueOps.map fun (_, o) => stopOf o.core).eraseDups
  let s := stops.foldl (fun s q => if s.fluePassed.contains q then s else s.flueVisit q) s
  let s := s.parts.foldl (fun s (n, p) => if p.inUse then s.use 5 n (s.liveSlots p) else s) s
  { s with fluePassed := [] }

/-- A slot that is vacated: its DATA is 0, and the home fields stay until the next boarding (R280). -/
def Slot.emptied (x : Slot) : Slot := { x with state := 0, data := 0, poison := false }

/-- FLUE_ALIGHT_COMPLETION (R285): the store is visible, and the slot becomes vacant. -/
def execFlueAlightCompletion (id : Nat) (s : State) : Out :=
  match look s.flueOps id with
  | none => ok s
  | some o =>
    if !o.away || o.fault.isSome || s.reqs.any fun (_, r) => r.acc == .alight id then ok s
    else ok ((s.setSlot o.slot (s.slot o.slot).emptied).endFlue id o [])

end Sys2Proof.Machine
end

