-- ==== Sys2Proof/Machine/Clock.lean ====
section
/-! DEFINITION. One clk: what counts clk counts it (R36, R50, R68, R266, R391, R392; log 8). -/

namespace Sys2Proof.Machine

/-- The parked splits of a partition on a core (R41, R58, R392): parked ones, pending ones, and those that a block halt holds. -/
def State.parkedSplits (s : State) (core part : Nat) : Nat :=
  (s.gangs.filter fun (_, g) => s.coreOf g == core && s.partOf g == part && g.place == .resident).foldl (fun n (_, g) =>
    n + (g.splits.filter fun (_, sp) => g.stopped || sp.isParked).length +
      (g.traps.filter fun (_, r) => r.pending.isSome).length) 0

/-- Whether the damper holds a split of a core (R335). -/
def State.damperHolds (s : State) (core : Nat) : Bool :=
  s.gangs.any fun (gid, g) => s.coreOf g == core && s.dampHeld g &&
    g.splits.any fun (e, sp) => s.mayIssue gid e && damped (s.codeWords g sp).1

/-- SLICECLK over one clk: the clk in which it stands at or above SLICELEN ends the slice (R50). While the context drains it counts on. -/
def State.tickSlice (s : State) (core part : Nat) : State :=
  let k := s.core core
  let n := lookD 0 k.sliceclk part
  match s.part part with
  | none => s
  | some p =>
    if !k.halting && !p.halted && p.slicelen.toNat ≤ n.toNat then s.endSlice core part
    else s.setCore core { k with sliceclk := put 0 k.sliceclk part (n + 1) }

/-- One clk of a core that a partition's context occupies. -/
def State.tickCore (s : State) (core part : Nat) : State :=
  let busy := (s.core core).matrixBusy
  let s := s.count core part 0x01 1
  let s := s.count core part 0x0A (if s.damperHolds core then 1 else 0)
  let s := s.count core part 0x0B (if 0 < busy then 1 else 0)
  let s := s.count core part 0x10 (s.parkedSplits core part)
  let s := s.tickSlice core part
  let k := s.core core
  s.setCore core { k with matrixBusy := k.matrixBusy - 1, selNow := k.perfsel, wrote := [] }

/-- The holds of JOIN run down; those of a gang that is halted or stopped keep their count (R36, R47). -/
def Gang.tick (g : Gang) : Gang :=
  { g with splits := g.splits.map fun (e, sp) => match sp.run with
      | .held (n + 1) => (e, { sp with run := .held n })
      | _ => (e, sp) }

/-- One clk. -/
def State.tick (s : State) : State :=
  let s := s.flueTick
  let s := s.cores.foldl (fun s (n, k) => match k.occ with
    | some p => s.tickCore n p
    | none => s) s
  { s with clk := s.clk + 1, picks := [], tried := [], gangs := s.gangs.map fun (k, g) => (k, if s.gangMoves k g then g.tick else g) }

end Sys2Proof.Machine
end

