-- ==== Sys2Proof/Machine/Capability.lean ====
section
/-! DEFINITION. Capability instructions of major opcode 0x60 (09). -/

namespace Sys2Proof.Machine

/-! ### Shared forms and results -/

/-- Whether a c register may not be written: c15 while a trap is handled (R62; log 12). -/
def Ctx.lockedC (c : Ctx) (b : CReg) : Bool := b == 15 && c.sp.mode != .u

/-- Writes a c register once for the gang (R181). -/
def Ctx.writeC (c : Ctx) (b : CReg) (x : Cap) : Act :=
  if c.lockedC b then .trap 3 0 0 else c.gangDone fun g => g.setC (cKey c.sp.mode b.toNat) x

/-- A capability instruction whose value faults are f's; c15 is refused first (log 12). -/
def Ctx.makeC (c : Ctx) (b : CReg) (f : Except (Nat × Nat) Cap) : Act :=
  if c.lockedC b then .trap 3 0 0
  else match f with
    | .ok x => c.writeC b x
    | .error (cause, addr) => .trap cause addr 0

/-- CSETB's result (R182). -/
def csetbOf (a : Cap) (x y : Word) : Except (Nat × Nat) Cap :=
  if !a.tag then .error (1, 0)
  else if a.type != 0 && a.type != 3 then .error (6, 0)
  else
    let u := if a.type == 0 then 16 else 1
    let start := x.toNat * u
    let len : Int := if y == 0xFFFFFFFF then (a.len : Int) - start else y.toNat * u
    if (start : Int) + len > a.len || len < 0 then .error (2, (a.flat + start) % 2 ^ 48)
    else .ok (Cap.make (a.base + x.toNat) len.toNat a.perm a.colour a.gen a.type true)

def candpOf (a : Cap) (x : Word) : Except (Nat × Nat) Cap :=
  if !a.tag then .error (1, 0)
  else if a.type != 0 && a.type != 3 then .error (6, 0)
  else .ok (Cap.make a.base a.len (a.perm &&& x.extractLsb' 0 8) a.colour a.gen a.type true)

/-- CSEAL's and CDELEG's results (R183, R184). -/
def csealOf (a : Cap) (x : Word) : Except (Nat × Nat) Cap :=
  if !a.tag then .error (1, 0)
  else if a.type != 0 then .error (6, 0)
  else if !a.allows permSEAL then .error (3, 0)
  else if x != 1 && x != 2 then .error (7, 0)
  else .ok (Cap.make a.base a.len a.perm a.colour a.gen x.toNat true)
def cdelegOf (a : Cap) (x : Word) : Except (Nat × Nat) Cap :=
  if !a.tag then .error (1, 0)
  else if a.type != 0 then .error (6, 0)
  else if !a.allows permSEAL then .error (3, 0)
  else if isHost a.flat then .error (7, 0)
  else .ok (Cap.make a.base a.len (a.perm &&& ~~~(permSEAL ||| permSYS)) (x.extractLsb' 0 8) a.gen 4 true)

/-- CUNSEAL's result (R183). -/
def cunsealOf (s : State) (p : Part) (a : Cap) : Except (Nat × Nat) Cap :=
  let x := s.extent (extentOf a.flat)
  if !a.tag then .error (1, 0)
  else if a.type == 0 then .error (7, 0)
  else if a.type != 4 then .error (6, 0)
  else if a.colour != p.colour then .error (4, 0)
  else if (extState x != 1 && extState x != 2) || extGen x != a.gen then .error (5, 0)
  else .ok (Cap.make a.base a.len a.perm (extOwner x) a.gen 0 true)

/-- CROOT's result over a run of extents (R185). -/
def crootRun (s : State) (p : Part) (hyp exec : Bool) (first count : Nat) : Except (Nat × Nat) Cap :=
  let es := (List.range count).map fun i => s.extent (first + i)
  let x := s.extent first
  if !es.all (fun e => extOwner e == extOwner x && (extState e == 1 || extState e == 2)) then .error (4, 0)
  else if !hyp && extOwner x != p.colour && !es.all (fun e => extState e == 2) then .error (4, 0)
  else if !es.all fun e => extGen e == extGen x then .error (5, 0)
  else
    let perm := if exec then permR ||| permX
      else if es.all fun e => extState e == 1 then permR ||| permW ||| permLC ||| permSC ||| permMS ||| permSEAL ||| permSYS
      else permR ||| permLC
    .ok (Cap.make (first * 0x20000) (count * 0x200000) perm (extOwner x) (extGen x) 0 true)

/-- CROOT's result (R185). -/
def crootOf (s : State) (p : Part) (hyp : Bool) (x y : Word) : Except (Nat × Nat) Cap :=
  let first := (x.extractLsb' 0 18).toNat
  let spare := x.extractLsb' 18 11 != 0
  if x.getLsbD 31 then .ok (Cap.make p.flueFirst p.flueCount (permR ||| permW) p.colour 0 3 true)
  else if x.getLsbD 29 then
    if spare || 256 ≤ first || x.getLsbD 30 then .error (7, 0)
    else .ok (Cap.make (0x80000000000 + first * 2 ^ 35) (2 ^ 39) (permR ||| permW) p.colour 0 0 true)
  else if spare || y == 0 || 196608 < first + y.toNat then .error (7, 0)
  else crootRun s p hyp (x.getLsbD 30) first y.toNat

/-- CCOVER's report (R187). -/
def ccoverOf (a x : Cap) : Word :=
  let u := if a.type == 3 && x.type == 3 then 1 else 16
  let bit := fun (b : Bool) (n : Word) => if b then n else 0
  bit (a.perm &&& ~~~x.perm == 0) 8 |||
    bit (decide (x.base ≤ a.base) && decide (a.base * u + a.len ≤ x.base * u + x.len)) 4 |||
    bit (a.type == x.type && a.colour == x.colour && a.gen == x.gen) 2 ||| bit (a.tag && x.tag) 1

/-- A field of a capability to one s register, and to an s pair (R186). -/
def cget (f : Cap → Nat) (a : CReg) (b : Reg) (s : State) : Out :=
  issue s { srcs := [.c a.toNat], dsts := [.s b.toNat 1] } fun c => c.writeS b.toNat (BitVec.ofNat 32 (f (c.cv a.toNat)))
def cget2 (f : Cap → Nat) (a : CReg) (b : Reg) (s : State) : Out :=
  issue s { wf := even b, srcs := [.c a.toNat], dsts := [.s b.toNat 2] } fun c =>
    let x := BitVec.ofNat 64 (f (c.cv a.toNat))
    c.gangDone fun g => (g.setS (c.sk b.toNat) (x.extractLsb' 0 32)).setS (c.sk (b.toNat + 1)) (x.extractLsb' 32 32)

/-! ### Meanings -/

/-- CMOV (R181). -/
def execCmov (a b : CReg) (s : State) : Out := issue s { srcs := [.c a.toNat] } fun c => c.writeC b (c.cv a.toNat)

/-- CSETB (R182). -/
def execCsetb (x : Reg) (a b : CReg) (s : State) : Out :=
  issue s { wf := even x, srcs := [.s x.toNat 2 false, .c a.toNat] }
    fun c => c.makeC b (csetbOf (c.cv a.toNat) (c.sv x.toNat) (c.sv (x.toNat + 1)))

/-- CANDP (R181). -/
def execCandp (x : Reg) (a b : CReg) (s : State) : Out :=
  issue s { srcs := [.s x.toNat 1 false, .c a.toNat] } fun c => c.makeC b (candpOf (c.cv a.toNat) (c.sv x.toNat))

/-- CSEAL (R183). -/
def execCseal (x : Reg) (a b : CReg) (s : State) : Out :=
  issue s { srcs := [.s x.toNat 1 false, .c a.toNat] } fun c => c.makeC b (csealOf (c.cv a.toNat) (c.sv x.toNat))

/-- CUNSEAL (R183). -/
def execCunseal (a b : CReg) (s : State) : Out := issue s { srcs := [.c a.toNat] } fun c => c.makeC b (cunsealOf c.s c.part (c.cv a.toNat))

/-- CDELEG (R184). -/
def execCdeleg (x : Reg) (a b : CReg) (s : State) : Out :=
  issue s { k2 := false, srcs := [.s x.toNat 1 false, .c a.toNat] } fun c => c.makeC b (cdelegOf (c.cv a.toNat) (c.sv x.toNat))

/-- CROOT (R185). -/
def execCroot (x : Reg) (b : CReg) (s : State) : Out :=
  issue s { priv := .s, wf := even x, srcs := [.s x.toNat 2 false] }
    fun c => c.makeC b (crootOf c.s c.part (c.sp.mode == .h) (c.sv x.toNat) (c.sv (x.toNat + 1)))

/-- CGET_BASE (R186). -/
def execCgetBase (a : CReg) (b : Reg) (s : State) : Out := cget2 Cap.flat a b s

/-- CGET_LEN (R186). -/
def execCgetLen (a : CReg) (b : Reg) (s : State) : Out := cget2 Cap.len a b s

/-- CGET_PERM (R186). -/
def execCgetPerm (a : CReg) (b : Reg) (s : State) : Out := cget (fun x => x.perm.toNat) a b s

/-- CGET_TYPE (R186). -/
def execCgetType (a : CReg) (b : Reg) (s : State) : Out := cget Cap.type a b s

/-- CGET_TAG (R186). -/
def execCgetTag (a : CReg) (b : Reg) (s : State) : Out := cget (fun x => if x.tag then 1 else 0) a b s

/-- CGET_COLOUR (R186). -/
def execCgetColour (a : CReg) (b : Reg) (s : State) : Out := cget (fun x => x.colour.toNat) a b s

/-- CGET_GEN (R186). -/
def execCgetGen (a : CReg) (b : Reg) (s : State) : Out := cget (fun x => x.gen.toNat) a b s

/-- CCLRTAG (R181). -/
def execCclrtag (a b : CReg) (s : State) : Out := issue s { srcs := [.c a.toNat] } fun c => c.writeC b { c.cv a.toNat with tag := false }

/-- CTOQ (R181). -/
def execCtoq (a : CReg) (b : Reg) (s : State) : Out :=
  issue s { wf := quad b, srcs := [.c a.toNat], dsts := [.v b.toNat 4] }
    fun c => c.gangDone fun g => (lanesOf c.live).foldl (fun g l => g.setQuad (c.vk b.toNat) l (c.cv a.toNat)) g

/-- CFROMQ (R181): from the lowest active lane's quad. -/
def execCfromq (a : Reg) (b : CReg) (s : State) : Out :=
  issue s { wf := quad a, srcs := (List.range 4).map fun i => .cross (a.toNat + i) false fun c _ => lowest c.active }
    fun c => c.writeC b (c.g.quadAt (c.vk a.toNat) (lowest c.active))

/-- CCOVER (R187). -/
def execCcover (x a : CReg) (b : Reg) (s : State) : Out :=
  issue s { srcs := [.c a.toNat, .c x.toNat], dsts := [.s b.toNat 1] } fun c => c.writeS b.toNat (ccoverOf (c.cv a.toNat) (c.cv x.toNat))

end Sys2Proof.Machine
end

