-- ==== Sys2Proof/Machine/Control.lean ====
section
/-! DEFINITION. Control flow and the system instructions that enter and leave traps (02, 08, 18): branches, calls, JOIN, EXIT, YIELD,
SYSCALL, HVCALL, BKPT, TRET, IFENCE. -/

namespace Sys2Proof.Machine

/-! ### Branches (R32, R155 to R157) -/

/-- Lanes of a split go on elsewhere: they form a new split in the lowest free entry, or are pushed onto the split's stack (R32). -/
def State.diverge (s : State) (gid e : Nat) (m : Mask) (pc : Word) : State :=
  match s.gang gid with
  | none => s
  | some g => match look g.splits e with
    | none => s
    | some sp =>
      let left := { sp with mask := sp.mask &&& ~~~m }
      match g.freeEntry with
      | some f =>
        let new := { Split.start m pc sp.mode sp.depth [] with dbl := sp.dbl, code := sp.code }
        s.setGang gid { g with splits := set (set g.splits e left) f new }
      | none => (s.setGang gid { g with splits := set g.splits e left }).push gid e { pc := pc, mask := m }

/-- Sets a split's program counter. -/
def State.goTo (s : State) (gid e : Nat) (pc : Word) : State := s.updSplit gid e fun sp => { sp with pc := pc, only := 0 }

/-- A branch taken by the lanes of a mask (R32, R155). -/
def Ctx.branch (c : Ctx) (taken : Mask) (disp : BitVec 21) : Act :=
  let target := c.pc + (disp.signExtend 32 <<< 1)
  let s := c.issued c.s
  if taken == c.active then .flow (s.goTo c.gid c.e target)
  else if taken == 0 then .flow (s.goTo c.gid c.e c.next)
  else .flow ((s.goTo c.gid c.e c.next).diverge c.gid c.e taken target)

/-- BRT (R155). -/
def execBrt (disp : BitVec 21) (k : KReg) (s : State) : Out :=
  issue s { srcs := [.k k.toNat] } fun c => c.branch (c.active &&& maskOf fun l => c.g.kAt k.toNat l) disp

/-- BRF (R155): with k0 the combination is reserved. -/
def execBrf (disp : BitVec 21) (k : KReg) (s : State) : Out :=
  issue s { wf := k != 0, srcs := [.k k.toNat] } fun c => c.branch (c.active &&& maskOf fun l => !c.g.kAt k.toNat l) disp

/-- CALL (R156). -/
def execCall (disp : BitVec 21) (s : State) : Out :=
  issue s { dsts := [.v 7 1] } fun c =>
    let s := (c.issued c.s).goTo c.gid c.e (c.pc + (disp.signExtend 32 <<< 1))
    .flow { s with gangs := modify s.gangs c.gid fun g => g.setVs (c.vk 7) (lanesOf c.live) fun _ => c.pc + 4 }

/-- The lanes that go to the same target as the lowest of a list, group by group in ascending order of lowest lane (R157). -/
def groupTargets (t : Nat → Word) : Nat → List Nat → List (Word × Mask)
  | 0, _ => []
  | n + 1, ls =>
    match ls with
    | [] => []
    | l :: _ => (t l, maskOf fun x => ls.contains x && t x == t l) :: groupTargets t n (ls.filter fun x => t x != t l)

/-- JMPR (R157). Lanes with an odd target trap before the groups are placed; where no split entry is free the groups that the trap does not
concern go onto the stack first, which the trap then saves (R355). -/
def execJmpr (a : Reg) (s : State) : Out :=
  issue s { srcs := [.v a.toNat 1 false .none] } fun c =>
    let t := fun l => c.v a.toNat .none l
    let bad := (lanesOf c.active).filter fun l => (t l).getLsbD 0
    let faults := bad.map fun l => { lane := l, cause := 16, addr := (t l).toNat, detail := 0 : LaneFault }
    match groupTargets t 32 ((lanesOf c.active).filter fun l => !(t l).getLsbD 0) with
    | [] => .flow (c.raise (c.issued c.s) faults c.next)
    | (pc, _) :: rest =>
      let s := (c.issued c.s).goTo c.gid c.e pc
      let place := fun (s : State) => rest.foldl (fun s x => s.diverge c.gid c.e x.2 x.1) s
      .flow (if c.g.freeEntry.isSome then place (c.raise s faults pc) else c.raise (place s) faults pc)

/-! ### JOIN, YIELD (R36, R158, R160) -/

/-- JOIN (R36). A hold of 0 clk ends at once. -/
def execJoin (n : BitVec 8) (s : State) : Out :=
  issue s {} fun c =>
    let s := c.issued c.s
    let sibling := c.g.splits.find? fun (e, sp) => e != c.e && fusible sp c.sp && (match sp.run with | .held _ => true | _ => false)
    match sibling with
    | some (e, _) => .flow (s.fuse c.gid c.e e c.next).1
    | none => match c.sp.stack with
      | x :: _ =>
        if x.pc == c.next then
          let s := (s.pop c.gid c.e).1
          .flow (s.updSplit c.gid c.e fun sp => { sp with mask := sp.mask ||| x.mask, pc := c.next })
        else
          let s := s.push c.gid c.e { pc := c.next, mask := c.active }
          let s := s.updSplit c.gid c.e fun sp =>
            { sp with stack := sp.stack.take 1 ++ sp.stack.drop 2, mask := x.mask, pc := x.pc }
          .flow (s.unspill c.gid c.e 33)
      | [] =>
        if n == 0 then .flow (s.goTo c.gid c.e c.next)
        else .flow (s.updSplit c.gid c.e fun sp => { sp with run := .held n.toNat })

/-- YIELD (R160): the ready splits of the core that are owed an issue opportunity, or 64 clk. -/
def execYield (s : State) : Out :=
  issue s {} fun c =>
    let owed := c.s.gangs.flatMap fun (k, g) =>
      if c.s.coreOf g == c.core then g.splits.filterMap fun (e, sp) =>
        if c.s.mayIssue k e && (k, e) != (c.gid, c.e) then some (k, lowest sp.mask, g.ticks.getD (lowest sp.mask) 0) else none
      else []
    .flow ((c.issued c.s).updSplit c.gid c.e fun sp =>
      { sp with pc := c.next, run := .yielding (c.s.clk.toNat + 64) owed })

/-! ### EXIT (R34, R159, R250, R362) -/

/-- Lanes leave every trap that holds them. It answers the traps that end thereby, deepest first (R354, R362). -/
def State.leaveTraps (s : State) (gid : Nat) (m : Mask) : State × List TrapRec :=
  [4, 3, 2, 1].foldl (fun (s, out) key =>
    match (s.gang gid).bind fun g => look g.traps key with
    | none => (s, out)
    | some r =>
      let s' := s.leaveTrap gid key m
      (s', if r.lanes &&& ~~~m == 0 then out ++ [r] else out)) (s, [])

/-- What an ended trap leaves for the entry its last lanes free: the pending split with the saved stack, or the top of the saved stack
(R362). -/
def State.resumeEnded (s : State) (gid e : Nat) (r : TrapRec) : State :=
  match s.gang gid with
  | none => s
  | some g =>
    if (look g.splits e).isSome then s
    else
      let stack := r.saved.getD []
      match r.pending, stack with
      | some (pc, m), _ =>
        (s.setGang gid { g with splits := set g.splits e (r.rest m pc stack) }).moveSpills gid r.entry e r.mode r.depth
      | none, x :: rest =>
        ((s.setGang gid { g with splits := set g.splits e (Split.start x.mask x.pc r.mode r.depth rest) }).moveSpills gid r.entry e
          r.mode r.depth).unspill gid e 33
      | none, [] => s

/-- Every lane of a split exits (R34, R159). -/
def State.exitSplit (s : State) (gid e : Nat) : State :=
  match s.gang gid with
  | none => s
  | some g => match look g.splits e with
    | none => s
    | some sp =>
      let m := sp.mask
      let s := s.setGang gid { g with exited := g.exited ||| m }
      let (s, ended) := s.leaveTraps gid m
      let s :=
        match sp.stack with
        | _ :: _ =>
          match s.pop gid e with
          | (s, some x) => s.updSplit gid e fun y => { y with mask := x.mask, pc := x.pc, run := .ready, only := 0 }
          | (s, none) => s
        | [] =>
          let s := { s with gangs := modify s.gangs gid fun g => { g with splits := del g.splits e } }
          (ended.foldl (fun (s : State) (r : TrapRec) => s.resumeEnded gid e r) s).resumePending gid
      s.barExit gid m

/-- EXIT (R159): it waits until every access of the lanes has been accepted or rejected. -/
def execExit (s : State) : Out :=
  issue s {} fun c =>
    if c.s.outstanding c.gid c.active then .stall else .flow ((c.issued c.s).exitSplit c.gid c.e)

/-! ### Traps by instruction, and the return (R161, R162, R164, R361) -/

/-- SYSCALL (R161): n in byte 0 of the detail. -/
def execSyscall (n : BitVec 8) (s : State) : Out := issue s {} fun _ => .call 64 0 n.toNat

/-- HVCALL (R161). -/
def execHvcall (n : BitVec 8) (s : State) : Out := issue s { priv := .s } fun _ => .call 65 0 n.toNat

/-- BKPT (R161). -/
def execBkpt (s : State) : Out := issue s {} fun _ => .call 66 0 0

/-- TRET (R361): RESUME is read from the frame in memory once every earlier store of the split has completed (R360). A frame that the device
may not reach halts the block and the partition (R442). An odd RESUME traps with its value as the faulting address (log 109). -/
def execTret (s : State) : Out :=
  issue s { priv := .s } fun c =>
    if c.sp.stack != [] then .trap 35 0 0
    else if c.s.openFor c.gid c.active then .stall
    else if !c.s.seatOk c.g then .flow (c.s.areaFailed c.gid)
    else
      let a := c.s.frameAt c.g (if c.sp.dbl then 0 else c.sp.depth) + 20
      let resume : Word := BitVec.ofNat 32 (leNat (c.s.bytesAt 0 a 4))
      if resume.getLsbD 0 then .trap 16 resume.toNat 0
      else .flow ((c.issued c.s).returnTrap c.gid c.e resume)

/-- IFENCE (R164, R245): the split's held code lines are dropped. -/
def execIfence (s : State) : Out :=
  issue s {} fun c =>
    if c.s.acquiring c.gid c.active then .stall else .done (c.s.updSplit c.gid c.e fun sp => { sp with code := [] }) []

end Sys2Proof.Machine
end

