-- ==== Sys2Proof/Machine/MemEvents.lean ====
section
/-! DEFINITION. What an access does at its home slice (10, 11, R174, R199 to R204, R328, R332), and the completion of an extent change
(R193). -/

namespace Sys2Proof.Machine

/-- Whether an alighting of the lanes, numbered below n, has yet to make its store to a byte of a range (R235, R292). -/
def State.alighting (s : State) (gid : Nat) (m : Mask) (n a size : Nat) : Bool :=
  s.flueOps.any fun (k, f) => decide (k < n) && f.gang == gid && m.getLsbD f.lane && f.kind == .alight false && f.fault.isNone &&
    overlap f.addr 16 a size

/-- Whether a read or a write of a range by some lanes, as their access numbered id, must let one be made first that they share a byte with: an
earlier access of theirs, a row of an earlier tile load where it writes, a sector of an earlier drain (R235, R259, R292), or a store that they have
already seen (R239; log 89). -/
def State.bytesBehind (s : State) (gid : Nat) (m : Mask) (id a n : Nat) (writes : Bool) : Bool :=
  (s.reqs.any fun (k, q) => decide (q.order k < id) && q.gang == gid && q.touches m && q.inFlight && overlap q.addr q.size a n) ||
  s.alighting gid m id a n ||
  (writes && s.tileOps.any fun (k, t) => decide (k < id) && t.gang == gid && t.mask &&& m != 0 && t.fault.isNone &&
    t.left.any fun (b, k) => overlap b k a n) ||
  (s.drains.any fun (k, d) => decide (k < id) && d.gang == gid && d.mask &&& m != 0 && d.left.any fun (b, k) => overlap b k a n) ||
  s.reqs.any fun (_, q) => overlap q.addr q.size a n && q.seen.any fun (g, l) => g == gid && m.getLsbD l

/-- Whether a sector of a drain, numbered id, must let an earlier access of its lanes be made first: one to a common byte, or one before a fence
with release (R235, R241). -/
def State.drainBehind (s : State) (id : Nat) (d : Drain) (a : Nat) : Bool :=
  s.bytesBehind d.gang d.mask id a 32 true || (d.wall != 0 && s.openBefore d.gang d.mask (min d.wall id))

/-- Whether some other access must be performed before this one: one of the same lane to a common byte (R235), an earlier lane's update of the
same word by the same atomic (R227), what a release or a fence orders before it (R236, R241), and before the memory side of a flue operation the
acquires that come before it (R234, R292). -/
def State.behind (s : State) (id : Nat) (r : Req) : Bool :=
  let o := r.order id
  (s.reqs.any fun (k, q) => decide (k < id) && q.inFlight && overlap q.addr q.size r.addr r.size && q.inst == r.inst && q.gang == r.gang &&
    q.acc.isAtomic && r.acc.isAtomic) ||
  s.bytesBehind r.gang r.lanes o r.addr r.size true ||
  (r.wall != 0 && s.openBefore r.gang r.lanes (min r.wall o)) ||
  (match r.acc with
    | .board _ => s.acquiringBefore r.gang r.lanes o
    | .alight _ => s.acquiringBefore r.gang r.lanes o
    | _ => false)

def State.setStage (s : State) (id : Nat) (x : Stage) : State := { s with reqs := modify s.reqs id fun r => { r with stage := x } }
def State.dropReq (s : State) (id : Nat) : State := { s with reqs := del s.reqs id }

/-- An access is rejected (R174). A prefetch raises nothing (R223); a flue operation carries its memory's rejection itself (R284, R285). -/
def State.reject (s : State) (id : Nat) (r : Req) (cause addr : Nat) : State :=
  match r.acc with
  | .prefetch => s.dropReq id
  | .board k => { s.dropReq id with flueOps := modify s.flueOps k fun o => { o with fault := some (cause, addr) } }
  | .alight k =>
    match look s.flueOps k with
    | none => s.dropReq id
    | some o =>
      let s := s.setSlot o.slot { s.slot o.slot with state := 1 }
      { s.dropReq id with flueOps := set s.flueOps k { o with fault := some (cause, addr) } }
  | _ => (s.setStage id (.rejected cause addr)).unhold r.gang r.mask

/-- A write of bytes at the home slice: the writing core's L1 follows a store, and keeps no line that an atomic has passed by (R201). -/
def State.performWrite (s : State) (r : Req) (bs : List Byte) : State :=
  let s := s.writeBytes (s.pasid r.part) r.addr bs
  let s := if r.acc.isAtomic then s.dropL1 r.core r.cap.colour r.addr bs.length else s.updateL1 r.core r.cap.colour r.addr bs
  s.touchLine r.addr r.part true

/-- The checks of a request at its home slice. A store that has been seen was accepted then (R177; log 89). -/
def State.reachReq (s : State) (r : Req) : Reach :=
  if !r.seen.isEmpty then .ok else s.reach r.core r.part r.cap.colour r.cap.gen r.acc.writes r.addr r.size

/-- The other lanes' writes of one store instruction to one address, which are made together (R215). -/
def Req.groupedWith (r q : Req) : Bool :=
  q.inst == r.inst && q.gang == r.gang && q.addr == r.addr && q.inFlight && decide (q.lane < 32) && decide (r.lane < 32)

/-- One store instruction's writes to one address: the highest lane's stays (R215). It answers the requests so performed. -/
def State.storeGroup (s : State) (id : Nat) (r : Req) : List (Nat × Req) :=
  s.reqs.filter fun (k, q) => k == id || (r.groupedWith q && (match s.reachReq q with | .ok => true | _ => false))

/-- Whether one of the writes made together must still wait. -/
def State.groupBehind (s : State) (id : Nat) (r : Req) : Bool :=
  s.behind id r || (match r.acc with
    | .store _ => s.reqs.any fun (k, q) => r.groupedWith q && s.behind k q
    | .storeCap _ => s.reqs.any fun (k, q) => r.groupedWith q && s.behind k q
    | _ => false)

/-- The trap of a graph trigger whose list fails: raised in every lane, to be executed again (R332). -/
def State.graphTrap (s : State) (id : Nat) (r : Req) (cause addr reason : Nat) : State :=
  match (s.gang r.gang).bind fun g => g.splits.find? fun (_, sp) => sp.run == .busy && sp.mask &&& r.mask != 0 with
  | none => s.dropReq id
  | some (e, _) =>
    ((s.dropReq id).unhold r.gang r.mask).takeTrap r.gang e
      { lanes := r.mask, cause := cause, addr := addr, detail := reason, pc := r.pc, word := r.word, pfx := r.pfx, resume := r.pc,
        rest := r.pc, stay := r.pc, late := 0 }

/-- The entries of a patch list: node, offset and value, and whether its reserved bits are 0 (R332). -/
def patchOf (x : Nat) : Nat × Nat × Word := (x % 4096, x / 2 ^ 16 % 16, BitVec.ofNat 32 (x / 2 ^ 32))
def patchClean (x : Nat) : Bool := x / 2 ^ 20 % 4096 == 0 && x / 2 ^ 12 % 16 == 0

/-- An access has done its part in memory, and waits on its core for the rest. -/
def State.waitOn (s : State) (id : Nat) (acc : Access) : State :=
  { s with reqs := modify s.reqs id fun r => { r with acc := acc, stage := .waiting } }

/-- GRAPH.TRIG at the home slice of its list (R332). One that passes keeps its patches until the graph's queue has an entry. -/
def State.trigger (s : State) (id : Nat) (r : Req) (graph : Nat) : State :=
  let head := s.bytesAt (s.pasid r.part) r.addr 16
  let count := leNat (head.take 4) % 64
  let size := 16 + 8 * count
  let off : Int := (r.addr : Int) - r.cap.flat
  match check14 r.cap 0 permR off size with
  | some cause => s.graphTrap id r cause r.addr 0
  | none => match s.reach r.core r.part r.cap.colour r.cap.gen false r.addr size with
    | .wait s => s.setStage id .page
    | .fail cause addr => s.reject id r cause addr
    | .ok =>
      if s.poisoned r.addr size then s.reject id r 20 r.addr
      else
        let s := (s.touchRun r.addr size r.part false).carry r.part (r.addr + 16) (size - 16)
        let bs := s.bytesAt (s.pasid r.part) r.addr size
        let xs := (List.range count).map fun i => leNat ((bs.drop (16 + 8 * i)).take 8)
        let key := r.part * 256 + graph % 256
        match if 256 ≤ graph then none else look s.graphs key with
        | none => s.graphTrap id r 58 0 1
        | some g =>
          if 32 < count || leNat head / 64 != 0 || !xs.all patchClean then s.graphTrap id r 58 0 2
          else if xs.any fun x => g.nodes.length ≤ (patchOf x).1 || (patchOf x).2.1 < 8 then s.graphTrap id r 58 0 3
          else
            let patches := xs.map patchOf
            (((s.dropReq id).unhold r.gang r.mask).joinGraph r.part graph patches).getD (s.waitOn id (.join graph patches))

/-- What an access does once its checks have passed. keep: a plain load's line enters the L1. A read that enters no line leaves none behind that an
older plain load brought in (R235; log 72). -/
def State.perform (s : State) (id : Nat) (r : Req) (keep : Bool) : State :=
  let pasid := s.pasid r.part
  if r.acc.reads && s.poisoned r.addr r.size then s.reject id r 20 r.addr
  else
    let fills := (match r.acc with | .load _ plain => plain && keep && r.gang != 0 | _ => false)
    let touched := s.touchRun r.addr r.size r.part false
    let touched := if r.acc.reads && !fills && r.gang != 0 then touched.dropL1 r.core r.cap.colour r.addr r.size else touched
    let word : Word := BitVec.ofNat 32 (leNat (s.bytesAt pasid r.addr 4))
    match r.acc with
    | .load signed _ =>
      let s := touched.setStage id (.replied (loadWords signed r.size (s.bytesAt pasid r.addr r.size)) false)
      let line := r.addr / 128
      if fills then
        s.setCore r.core ((s.core r.core).fillL1
          { line := line, data := s.bytesAt pasid (line * 128) 128, colour := r.cap.colour, gen := r.cap.gen,
            bad := eccMask fun i => s.poisoned (line * 128 + 8 * i) 8 })
      else s
    | .loadCap keepTag =>
      if isHost r.addr then touched.setStage id (.replied (wordsOf 4 (s.bytesAt pasid r.addr 16)) false)
      else
        let c := s.moved (s.capAt r.addr)
        touched.setStage id (.replied (wordsOf 4 (leBytes 16 c.bits.toNat)) (c.tag && keepTag))
    | .store bs =>
      let mine := s.storeGroup id r
      let bs := ((mine.filterMap fun (_, q) => match q.acc with | .store b => some (q.lane, b) | _ => none).foldl
        (fun (a : Nat × List Byte) b => if a.1 ≤ b.1 then b else a) (0, bs)).2
      { s.performWrite r bs with reqs := (s.performWrite r bs).reqs.filter fun x => !mine.any fun m => m.1 == x.1 }
    | .storeCap c =>
      let mine := s.storeGroup id r
      let c := ((mine.filterMap fun (_, q) => match q.acc with | .storeCap b => some (q.lane, b) | _ => none).foldl
        (fun (a : Nat × Cap) b => if a.1 ≤ b.1 then b else a) (0, c)).2
      let c := s.moved c
      let s := ((s.writeCap r.addr c).dropL1 r.core r.cap.colour r.addr 16).touchLine r.addr r.part true
      { s with reqs := s.reqs.filter fun x => !mine.any fun m => m.1 == x.1 }
    | .atomic op y z returns =>
      let s := s.performWrite r (leBytes 4 (atomNew op word y z).toNat)
      if returns then s.setStage id (.replied [word] false) else s.dropReq id
    | .prefetch => touched.dropReq id
    | .wait ne cmp => touched.setStage id (if waitMet ne cmp word then .replied [] false else .waiting)
    | .launch tags =>
      let rec_ := s.recordAt pasid r.addr tags
      (((touched.dropReq id).unhold r.gang r.mask).enqueue r.part rec_).getD (touched.waitOn id (.enter rec_))
    | .graph g => s.trigger id r g
    | .hcmd => s.dropReq id
    | .sign => s
    | .onCore => s
    | .record _ => s
    | .phase _ => s
    | .phalt _ _ => s
    | .enter _ => s
    | .join _ _ => s
    | .board k =>
      { touched.dropReq id with flueOps := modify s.flueOps k fun o =>
          { o with kind := .board (some (BitVec.ofNat 128 (leNat (s.bytesAt pasid r.addr 16)))) } }
    | .alight k =>
      (match look s.flueOps k with
      | none => s.dropReq id
      | some o =>
        let x := s.slot o.slot
        let s := s.performWrite r (leBytes 16 x.data.toNat)
        let s := if x.poison then { s with poison := put false s.poison (r.addr / 32) true } else s
        s.dropReq id)

/-- Whether an access is one that a halt or an eviction makes a request packet, to be reissued when its gang is back (R47, R49). -/
def Access.packet : Access → Bool
  | .load _ _ => true
  | .loadCap _ => true
  | .prefetch => true
  | .graph _ => true
  | _ => false

/-- Whether an access waits for its gang to be in its seat: a packet, and an atomic's update of a pass that a halt has saved (R49, R229). A
WAITMEM goes on at its home slice (R224). -/
def Access.seated (a : Access) : Bool := a.packet || a.isAtomic

/-- Whether a gang's registers are in its seat. -/
def State.seatedNow (s : State) (gid : Nat) : Bool :=
  match s.gang gid with
  | none => true
  | some g => g.place == .resident && (s.core (s.coreOf g)).occ == some (s.partOf g)

/-! ### The crossbar (R336, R338) -/

/-- Where the sectors of a drain from the nth on lie: 0 for the flat space, or a block's scratchpad, and the address or offset there. -/
def State.drainSpots (s : State) (d : Drain) (n : Nat) : List (Nat × Nat) :=
  (List.range d.sectors).filterMap fun i =>
    if i < n then none
    else if d.space == 0 then some (0, d.cap.at (d.offsetOf i))
    else (s.padPlace d.block (d.space == 2) (d.offsetOf i) 32).map fun (b, o) => (b + 1, o)

/-- Whether an earlier add-on-store drain in flight overlaps: of two, one applies wholly before the other (R274). -/
def State.drainWaits (s : State) (id : Nat) (d : Drain) : Bool :=
  d.add && s.drains.any fun (k, x) => decide (k < id) && x.add &&
    (s.drainSpots x x.next).any fun a => (s.drainSpots d 0).any fun b => a.1 == b.1 && overlap a.2 32 b.2 32

/-- The first address that a matrix instruction reads through the stationary port, which stands for the others (log 42). -/
def MatrixOp.head (op : MatrixOp) : Option Nat := op.weights.map fun (cap, off, _) => cap.at off

/-- Whether an access is a packet that waits at its writer, a core quad, to be sent on a home channel, all but what it waits behind where held is
true. -/
def State.waitsOn (s : State) (ch writer : Nat) (held : Bool) (id : Nat) (r : Req) : Bool :=
  r.stage == .sent && r.acc != .sign && r.core / 4 == writer && s.homeSlice r.addr == ch &&
    (held || ((!r.acc.seated || s.seatedNow r.gang) && !s.groupBehind id r))

/-- Whether a writer has a packet to send on a home channel: an access, the next row of a tile load, the next sector of a drain or of an engine
command, or the operand of a matrix instruction. One that an order or a wait for something else than the token holds back counts where held is
true only (R338). -/
def State.unitWaits (s : State) (ch writer : Nat) (held : Bool) : Bool :=
  let on := fun (core part : Nat) (a : Option Nat) (free : Nat → Bool) => core / 4 == writer && (match a with
    | some a => s.homeSlice a == ch && (held || ((s.core core).occ == some part && s.sendable core part a && free a))
    | none => false)
  (s.reqs.any fun (id, r) => s.waitsOn ch writer held id r) ||
  (s.tileOps.any fun (id, t) => on t.core t.part (t.left.head?.map (·.1)) fun a => !s.bytesBehind t.gang t.mask id a ((t.left.head?.map (·.2)).getD 0) false) ||
  (s.drains.any fun (id, d) => on d.core d.part (d.left.head?.map (·.1)) fun a => !s.drainWaits id d && !s.drainBehind id d a) ||
  (s.matrix.any fun o => !o.started && on o.core o.part o.head fun _ => (s.matrix.find? fun x => x.core == o.core && !x.started).map (·.id) == some o.id) ||
  s.engines.any fun (_, x) => x.stage == .running && on x.core x.part (x.head) fun _ => true

/-- The raised writers of a home channel that have a packet to send which only the token keeps, in the order they were raised. -/
def State.raisedOn (s : State) (ch : Nat) : List Nat := (lookD [] s.raised ch).filter fun w => s.unitWaits ch w false

/-- Whether a packet of a core for an address waits for a raised writer to go first. -/
def State.outranked (s : State) (core a : Nat) : Bool :=
  match s.raisedOn (s.homeSlice a) with
  | [] => false
  | w :: _ => w != core / 4

/-- A packet leaves its writer, which is raised no more. -/
def State.sentPacket (s : State) (core a : Nat) : State :=
  let ch := s.homeSlice a
  if (lookD [] s.raised ch).isEmpty then s
  else { s with raised := put [] s.raised ch ((lookD [] s.raised ch).filter fun w => w != core / 4 && s.unitWaits ch w true) }

/-- RAISED_WRITER (R338): the wait of 1,024 clk is the crossbar's to measure (log 42). Channels 0 to 127 are home channels, written by quads;
from 128 on they are return channels, written by slices. -/
def execRaisedWriter (ch writer : Nat) (s : State) : Out :=
  let held := (lookD [] s.raised ch).filter fun w => if ch < 128 then s.unitWaits ch w true else s.replyWaits (ch - 128) w
  ok (if (if ch < 128 then s.unitWaits ch writer false else s.replyWaits (ch - 128) writer) && !held.contains writer then
    { s with raised := put [] s.raised ch (held ++ [writer]) } else s)

/-- HOME_SLICE_ACCESS (R199): the checks of orders 6 and 7, the wait for a host page, and the access itself. A prefetch waits for a translation,
and goes where its page is known not to be present (R223). -/
def execHomeSliceAccess (id : Nat) (keep : Bool) (err : MemErr) (s : State) : Out :=
  match look s.reqs id with
  | none => ok s
  | some r =>
    if !r.inFlight || r.acc == .sign || s.groupBehind id r || (r.stage == .sent && s.outranked r.core r.addr) || (r.acc.seated && !s.seatedNow r.gang) then ok s
    else
      let s := if r.stage == .sent then s.sentPacket r.core r.addr else s
      match s.reachReq r with
      | .fail cause addr => ok (s.reject id r cause addr)
      | .wait s' =>
        if r.acc != .prefetch then ok (if r.stage == .page && s.pageAsked (dieOf r.core) r.part r.addr then s else s'.setStage id .page)
        else if s.pageReqs.any fun x => x.part == r.part && x.page == r.addr / 4096 then ok (s.dropReq id)
        else ok ((s.askQuietly (dieOf r.core) r.part r.addr).setStage id .page)
      | .ok => ok (((if r.acc.reads && !isHost r.addr then s.eccRead r.addr err else s).perform id r keep).carry r.part r.addr r.size)

/-- Whether a store may show its value to a lane of a gang before its home slice performs it: the lane is not its own, and its scope, where
it has one, does not include it, nor does that of the fence that makes it a release (R233, R236, R239). -/
def State.outsideScope (s : State) (q : Req) (gid lane : Nat) : Bool :=
  let other := q.gang != gid || !q.touches (bit lane)
  let place := fun k => (s.gang k).bind fun g => (s.block g.block).map fun b => (g.block, b.core / 64)
  other && match max q.scope q.vis with
    | 0 => true
    | 1 => q.gang != gid
    | 2 => (place q.gang).map (·.1) != (place gid).map (·.1)
    | 3 => (place q.gang).map (·.2) != (place gid).map (·.2)
    | _ => false

/-- A load of one lane returns the bytes of a store that is still in flight, over what memory holds: R239 promises one moment of visibility
inside a strong store's scope only. The store shows itself only once what a release or a fence orders before it has been performed (R241). It
counts as accepted, the lane's later accesses to those bytes wait for it, and the reader's core keeps no line of them in its L1 (R177, R235;
log 89). -/
def State.early (s : State) (id k : Nat) : State :=
  match look s.reqs id, look s.reqs k with
  | some r, some q => match r.acc, q.acc with
    | .load signed _, .store bs =>
      let last := s.reqs.all fun (_, x) => !q.groupedWith x || decide (x.lane ≤ q.lane)
      if r.stage == .sent && q.stage == .sent && !(q.wall != 0 && s.openBefore q.gang q.lanes (min q.wall k)) && decide (r.lane < 32) && !isHost r.addr && !s.behind id r && s.seatedNow r.gang &&
          s.outsideScope q r.gang r.lane && overlap q.addr q.size r.addr r.size && last && !s.poisoned r.addr r.size then
        match s.reachReq r, s.reachReq q with
        | .ok, .ok =>
          let old := s.bytesAt 0 r.addr r.size
          let new := (List.range r.size).map fun i =>
            if q.addr ≤ r.addr + i && r.addr + i < q.addr + q.size then bs.getD (r.addr + i - q.addr) 0 else old.getD i 0
          let s := { s with reqs := modify s.reqs k fun q => { q with seen := (r.gang, r.lane) :: q.seen } }
          (s.dropL1 r.core r.cap.colour r.addr r.size).setStage id (.replied (loadWords signed r.size new) false)
        | _, _ => s
      else s
    | _, _ => s
  | _, _ => s

/-- EXTENT_CHANGE_COMPLETION (R193): every slice and every L1 has dropped the extent's lines; a free is complete (R387). A store that has been
accepted under the old entry by being seen is made before (R177, R246; log 89). -/
def execExtentChangeCompletion (e : Nat) (s : State) : Out :=
  let seen := s.reqs.any fun (_, q) => q.inFlight && !q.seen.isEmpty && (extentsOf q.addr q.size).contains e
  ok (if s.changing.contains e && !seen then
      { s.dropExtent e with changing := s.changing.filter (· != e), freed := s.freed || extState (s.extent e) == 3 }
    else s)

end Sys2Proof.Machine
end

