-- ==== Sys2Proof/Machine/Security.lean ====
section
/-! DEFINITION. What the engines and the security controller make with keys (R310, R370, R414): authenticated encryption and key
derivation over the constants of Config. -/

namespace Sys2Proof.Machine

def xorBytes (a b : List Byte) : List Byte := (a.zip b).map fun (x, y) => x ^^^ y

/-- AES-256-GCM with the plaintext's keystream and tag as Config leaves them (log 23). from_: the position of the first byte. -/
def gcmCrypt (key : BitVec 256) (nonce from_ : Nat) (bs : List Byte) : List Byte :=
  bs.zipIdx.map fun (x, i) => x ^^^ Config.keystream key.toNat nonce (from_ + i)
def gcmTag (key : BitVec 256) (nonce : Nat) (aad ct : List Byte) : List Byte :=
  leBytes 16 (Config.mac key.toNat nonce (leBytes 8 aad.length ++ aad ++ ct)).toNat

/-- The bytes of a measurement or identity in order. -/
def bytes64 (x : BitVec 512) : List Byte := leBytes 64 x.toNat

/-- The key of a context's checkpoint images (R310, R414). -/
def checkpointKey (measurement : BitVec 512) : BitVec 256 := Config.kmac Config.sealingRoot (bytes64 measurement) "ZLR CHECKPOINT"

/-- The key of a started context (R370, R414). -/
def contextKey (measurement : BitVec 512) (start : BitVec 64) (part : Nat) : BitVec 256 :=
  Config.kmac Config.sealingRoot (bytes64 measurement ++ leBytes 8 start.toNat ++ leBytes 1 part) "ZLR CONTEXT"

/-- Whether a byte string comes before another (R414). -/
def bytesLt : List Byte → List Byte → Bool
  | [], _ => false
  | _, [] => false
  | a :: r, b :: t => decide (a.toNat < b.toNat) || (a == b && bytesLt r t)

/-- The key of a port, from its shared secret and both identities, the lower first (R412, R414). -/
def portKey (secret : BitVec 256) (peer : BitVec 512) : BitVec 256 :=
  let a := bytes64 Config.identity
  let b := bytes64 peer
  Config.kmac secret (if bytesLt a b then a ++ b else b ++ a) "ZLR PORT"

/-- The key of a pair (R413, R414). -/
def pairKey (port : BitVec 256) (peer mine theirs : BitVec 512) (part peerPart : Nat) : BitVec 256 :=
  let low := bytesLt (bytes64 Config.identity) (bytes64 peer)
  let (m, n, i, j) := if low then (mine, theirs, part, peerPart) else (theirs, mine, peerPart, part)
  Config.kmac port (bytes64 m ++ bytes64 n ++ leBytes 1 i ++ leBytes 1 j) "ZLR PAIR"

/-- The additional data of a checkpoint image: bytes 0 to 47 of its header (R310). -/
def imageHead (counter : BitVec 64) (len : Nat) : List Byte :=
  leBytes 4 0x4B504843 ++ leBytes 4 1 ++ leBytes 8 counter.toNat ++ leBytes 8 len ++ leBytes 24 0

end Sys2Proof.Machine
end

