-- ==== Sys2Proof/Machine/EngineEvents.lean ====
section
/-! DEFINITION. What the copy, gather and collective engines do with accepted commands (15, R307 to R317): they start, deliver sector by
sector, complete or fail. -/

namespace Sys2Proof.Machine

def State.setEngine (s : State) (id : Nat) (e : Engine) : State := { s with engines := set s.engines id e }

/-- A command stops with a code, and with it those it is matched with: a SEND or BCAST and its RECVs stop together (R317; log 32). -/
def State.failEngine (s : State) (id : Nat) (code : Nat) : State :=
  match look s.engines id with
  | none => s
  | some e =>
    let root := if e.kind == 0x21 then e.mates else [id]
    let group := id :: root ++ root.flatMap fun k => ((look s.engines k).map (·.mates)).getD []
    { s with engines := s.engines.map fun (k, x) => if group.contains k then (match x.stage with
        | .failing _ => (k, x)
        | _ => (k, { x with stage := .failing (BitVec.ofNat 16 code) })) else (k, x) }

/-! ### Starting -/

/-- Whether an earlier command of the same queue that conflicts has yet to complete (R313). -/
def State.engineBehind (s : State) (id : Nat) (e : Engine) : Bool :=
  s.engines.any fun (k, x) => decide (k < id) && x.gang == e.gang && x.queue == e.queue && s.conflict x e

/-- The oldest unmatched RECV of the partition on a die, on the channel, naming the sender's die, once it is posted: one that must still let
an earlier command go first holds the SEND (R311, R313). -/
def State.recvFor (s : State) (e : Engine) (die : Nat) : Option (Nat × Engine) :=
  (s.engines.find? fun (_, x) => x.kind == 0x21 && (match x.stage with | .failing _ => false | _ => true) && x.row == 0 && x.route == 0 &&
    x.part == e.part && dieOf x.core == die && x.peer == dieOf e.core && x.channel == e.channel).filter fun x => x.2.stage == .running

/-- Matches a SEND or BCAST with the RECV of one die, or fails both where LENGTH or CHUNK differs. -/
def State.matchDie (s : State) (id : Nat) (e : Engine) (die : Nat) : State :=
  match s.recvFor e die with
  | none => s
  | some (k, x) =>
    if x.len != e.len || x.chunk != e.chunk then
      (s.setEngine k { x with stage := .failing 0x0501 }).failEngine id 0x0501
    else
      let bit := if e.kind == 0x22 then 2 ^ die else 1
      (s.setEngine k { x with row := 1, mates := [id] }).setEngine id
        { e with stage := .running, row := e.row + bit, mates := e.mates ++ [k] }

/-- The dies a command has still to be matched with. -/
def Engine.diesLeft (e : Engine) : List Nat :=
  if e.kind == 0x22 then (List.range 4).filter fun d => e.peer / 2 ^ d % 2 == 1 && e.row / 2 ^ d % 2 == 0
  else if e.row == 0 then [e.peer] else []

/-- A command starts: no earlier conflicting command is incomplete (R313). On ROUTE 1 the peer's part is an input. -/
def State.startEngine (s : State) (kind id : Nat) : State :=
  match look s.engines id with
  | none => s
  | some e =>
    if e.kind != kind || !s.engineOn e then s
    else match e.stage with
      | .failing _ => s
      | .running => if e.kind == 0x22 then (e.diesLeft.filter fun d => (s.recvFor e d).isSome).head?.elim s (s.matchDie id e) else s
      | .accepted =>
        if s.engineBehind id e then s
        else if kind < 0x20 then s.setEngine id { e with stage := .running }
        else if e.route == 1 then
          (match look s.ports e.peer with
          | some p => if p.up then s.setEngine id { e with stage := .running, row := 1 } else s.failEngine id 0x0502
          | none => s.failEngine id 0x0502)
        else if kind == 0x21 then s.setEngine id { e with stage := .running }
        else if e.diesLeft.isEmpty then s.setEngine id { e with stage := .running }
        else (e.diesLeft.filter fun d => (s.recvFor e d).isSome).head?.elim s (s.matchDie id e)

/-- COPY1D (R307). -/
def execCopy1d (id : Nat) (s : State) : Out := ok (s.startEngine 1 id)
/-- COPY2D (R307). -/
def execCopy2d (id : Nat) (s : State) : Out := ok (s.startEngine 2 id)
/-- COPYTILE (R308). -/
def execCopytile (id : Nat) (s : State) : Out := ok (s.startEngine 3 id)
/-- FILL (R307). -/
def execFill (id : Nat) (s : State) : Out := ok (s.startEngine 4 id)
/-- SEAL (R310). -/
def execSeal (id : Nat) (s : State) : Out := ok (s.startEngine 5 id)
/-- OPEN (R310). -/
def execOpen (id : Nat) (s : State) : Out := ok (s.startEngine 6 id)
/-- GATHER (R309). -/
def execGather (id : Nat) (s : State) : Out := ok (s.startEngine 0x10 id)
/-- SCATTER (R309). -/
def execScatter (id : Nat) (s : State) : Out := ok (s.startEngine 0x11 id)
/-- SEND (R311). -/
def execSend (id : Nat) (s : State) : Out := ok (s.startEngine 0x20 id)
/-- RECV (R311). -/
def execRecv (id : Nat) (s : State) : Out := ok (s.startEngine 0x21 id)
/-- BCAST (R311). -/
def execBcast (id : Nat) (s : State) : Out := ok (s.startEngine 0x22 id)

/-! ### Reading and writing one sector -/

/-- What a read by an engine gives: bytes with the tags of their granules, a code, or a wait in a state. -/
inductive Pull where
  | data (bs : List Byte) (tags : List Bool)
  | fail (code : Nat)
  | wait (s : State)

/-- What a write by an engine gives. -/
inductive Push where
  | done (s : State)
  | fail (code : Nat)
  | wait (s : State)

/-- What a command moves through home slices passes them (R200) and counts toward its partition's energy (R396; log 94). -/
def State.engineMoved (s : State) (e : Engine) (space : Nat) (cap : Cap) (off n : Nat) (write : Bool) : State :=
  if space != 0 || n == 0 then s
  else
    (s.touchRun (cap.at off) n e.part write).carry e.part (cap.at off) n

/-- Reads n bytes at an offset of a space for a command (R317). A scratchpad that its block has given up is still read, and holds free values
(R318, R325; log 104). -/
def State.engineRead (s : State) (e : Engine) (space : Nat) (cap : Cap) (off n : Nat) : Pull :=
  if space == 0 then
    let a := cap.at off
    match s.reach e.core e.part cap.colour cap.gen false a n with
    | .wait s => .wait s
    | .fail cause _ => .fail (0x0400 + cause)
    | .ok =>
      if s.poisoned a n then .fail 0x0414
      else .data (s.bytesAt (s.pasid e.part) a n) ((List.range (n / 16)).map fun k => !isHost a && (s.moved (s.capAt (a + 16 * k))).tag)
  else match s.padPlace e.block (space == 2) off n with
    | none => .fail 0x0402
    | some (b, o) => match s.block b with
      | none => .fail 0x0402
      | some x =>
        if x.done then .data (leBytes n (Config.freeValue s.fresh : BitVec (8 * n)).toNat) []
        else if x.padPoisoned o n then .fail 0x0414
        else .data (x.padBytes o n) ((List.range (n / 16)).map fun k =>
          lookD false x.padTag (o / 16 + k) && (s.moved ⟨BitVec.ofNat 128 (leNat (x.padBytes (o + 16 * k) 16)), true⟩).tag)

/-- Reads the parts of a run; zeros stand for parts that have no source. Only one whole part keeps its tags. -/
def State.engineParts (s : State) (e : Engine) : List (Option Nat × Nat) → Pull
  | [] => .data [] []
  | (off, n) :: r =>
    match match off with
      | none => Pull.data (List.replicate n 0) []
      | some o => s.engineRead e e.srcSpace e.src o n with
    | .fail c => .fail c
    | .wait s => .wait s
    | .data bs tags =>
      match s.engineParts e r with
      | .fail c => .fail c
      | .wait s => .wait s
      | .data cs _ => .data (bs ++ cs) (if r.isEmpty then tags else [])

/-- Where an offset of the destination space lies: 0 for the flat space or a block's number plus 1, and the byte. -/
def State.dstAt (s : State) (e : Engine) (off : Nat) : Option (Nat × Nat) :=
  if e.dstSpace == 0 then some (0, e.dst.at off) else (s.padPlace e.block (e.dstSpace == 2) off 1).map fun (b, o) => (b + 1, o)

/-- Writes bytes at an offset of the destination space, with tags for the granules that keep theirs (R178, R179). A scratchpad line written
through the cluster window is one whose reads acquire at cluster scope (R242). -/
def State.engineWrite (s : State) (e : Engine) (off : Nat) (bs : List Byte) (tags : List Bool) : Push :=
  if e.dstSpace == 0 then
    let a := e.dst.at off
    match s.reach e.core e.part e.dst.colour e.dst.gen true a bs.length with
    | .wait s => .wait s
    | .fail cause _ => .fail (0x0400 + cause)
    | .ok =>
      let s := ((s.writeBytes (s.pasid e.part) a bs).updateL1 e.core e.dst.colour a bs).engineMoved e 0 e.dst off bs.length true
      .done (if isHost a then s else { s with
        tags := tags.zipIdx.foldl (fun t (x, k) => if x then put false t (a / 16 + k) true else t) s.tags })
  else match s.padPlace e.block (e.dstSpace == 2) off bs.length with
    | none => .fail 0x0402
    | some (b, o) => .done { s with blocks := modify s.blocks b fun x =>
        let x := x.padWrite o bs
        let x := if e.dstSpace == 2 then { x with padFar := (unitsOf 128 o bs.length).foldl (fun m l => put false m l true) x.padFar } else x
        { x with padTag := tags.zipIdx.foldl (fun t (y, k) => if y then put false t (o / 16 + k) true else t) x.padTag } }

/-- Whether a copy of a command keeps tags from and to these offsets, those of the command or of a row of it (R178). -/
def Engine.keeps (e : Engine) (ask : Bool) (srcSpace : Nat) (src : Cap) (srcOff dstOff : Nat) : Bool :=
  ask && (srcSpace != 0 || src.allows permLC) && (e.dstSpace != 0 || e.dst.allows permSC) && srcOff % 16 == 0 && dstOff % 16 == 0

/-! ### Lines and counts -/

/-- One pending writer of a scratchpad line fewer; with none left the line fills (R315). -/
def State.dropWriter (s : State) (b l : Nat) : State :=
  { s with blocks := modify s.blocks b fun x =>
      let n := lookD 0 x.padWriters l - 1
      { x with padWriters := put 0 x.padWriters l n, padEmpty := if n == 0 then put false x.padEmpty l false else x.padEmpty } }

/-- Bytes have landed: lines the command has written its last byte to lose it as a writer. An OPEN's stay to its end (R310). -/
def State.landed (s : State) (e : Engine) (off n : Nat) : State × Engine :=
  if e.kind == 6 then (s, e)
  else
    let (left, gone) := ((s.linesOf e off n).foldl (fun xs (b, l, k) =>
      xs.map fun (c, m, j) => if c == b && m == l then (c, m, j - k) else (c, m, j)) e.lines).partition fun x => x.2.2 != 0
    (gone.foldl (fun s (b, l, _) => s.dropWriter b l) s, { e with lines := left })

/-- A sector has been delivered: it is counted on the barrier and, for the copy and gather engines, as event 0x0E (R314, R392). -/
def State.counted (s : State) (e : Engine) : State :=
  let s := match e.bar with
    | some r => s.barDeliver r 1
    | none => s
  if e.kind < 0x20 then s.count e.core e.part 0x0E 1 else s

/-- How many bytes of a run the sector at a position takes: up to the next aligned 32-byte unit of the destination; of an element of GATHER
or SCATTER, 32 (R314). -/
def State.pieceLen (s : State) (e : Engine) (off left : Nat) : Nat :=
  if e.kind == 0x10 || e.kind == 0x11 then min left 32
  else match s.dstAt e off with
  | some (_, a) => min left (32 - a % 32)
  | none => min left 32

/-- Writes the sector of a run at the command's position, and moves on. len: the run's length; next: the command after the run. -/
def State.putPiece (s : State) (id : Nat) (e : Engine) (dst len : Nat) (bs : List Byte) (tags : List Bool) (next : Engine → Engine) : State :=
  match s.engineWrite e (dst + e.pos) bs tags with
  | .wait s => s
  | .fail c => s.failEngine id c
  | .done s =>
    let (s, e) := s.landed e (dst + e.pos) bs.length
    let e := { e with pos := e.pos + bs.length }
    (s.setEngine id (if len ≤ e.pos then next { e with pos := 0 } else e)).counted e

/-! ### Delivery by kind -/

/-- The next sector of a copy, fill, gather or scatter run (R307 to R309). -/
def State.runPiece (s : State) (id : Nat) (e : Engine) (x : Span) : State :=
  let n := s.pieceLen e (x.dst + e.pos) (x.len - e.pos)
  let parts := x.src e.pos n
  let next := fun (e : Engine) => { e with row := e.row + 1, buf := if e.kind == 0x10 || e.kind == 0x11 then [] else e.buf }
  if e.kind == 4 then
    s.putPiece id e x.dst x.len ((List.range n).map fun i => ((e.words.getD 2 0).extractLsb' (8 * ((x.dst + e.pos + i) % 8)) 8 : Byte)) [] next
  else match s.engineParts e parts with
    | .wait s => s
    | .fail c => s.failEngine id c
    | .data bs tags =>
      let keep := match x.src 0 n with
        | [(some o, _)] => (e.kind == 3 || (e.o1 % 16 == 0 && e.o2 % 16 == 0)) && e.keeps e.keepTags e.srcSpace e.src o x.dst
        | _ => false
      let s := parts.foldl (fun s (o, k) => match o with
        | some o => s.engineMoved e e.srcSpace e.src o k false
        | none => s) s
      s.putPiece id e x.dst x.len bs (if keep then tags else []) next

/-- The next step of GATHER or SCATTER: the index of the element, then its sectors (R309). -/
def State.gatherPiece (s : State) (id : Nat) (e : Engine) : State :=
  if e.count ≤ e.row then s
  else if e.buf.isEmpty then
    match s.engineRead e 0 e.aux (e.len + 4 * e.row) 4 with
    | .wait s => s
    | .fail c => s.failEngine id c
    | .data bs _ =>
      let x := leNat bs
      let s := s.engineMoved e 0 e.aux (e.len + 4 * e.row) 4 false
      if x == 0xFFFFFFFF then s.setEngine id { e with row := e.row + 1 }
      else
        let t := e.o1 + x * e.elemSize
        let len := if e.kind == 0x10 then s.spaceLen e e.srcSpace e.src e.o1 else s.spaceLen e e.dstSpace e.dst e.o1
        if len < t + e.elemSize then s.failEngine id 0x0402 else s.setEngine id { e with buf := bs }
  else match e.run e.row (leNat e.buf) with
    | some x => s.runPiece id e x
    | none => s

/-- The next step of SEAL: it reads and encrypts, then writes the header and the ciphertext (R310). -/
def State.sealPiece (s : State) (id : Nat) (e : Engine) : State :=
  let key := checkpointKey (s.context e.part).measurement
  let done := e.buf.length
  if done < e.len then
    match s.engineRead e e.srcSpace e.src (e.o1 + done) (min 32 (e.len - done)) with
    | .wait s => s
    | .fail c => s.failEngine id c
    | .data bs _ => (s.engineMoved e e.srcSpace e.src (e.o1 + done) bs.length false).setEngine id { e with buf := e.buf ++ gcmCrypt key e.counter.toNat done bs }
  else if e.row == 0 then
    let head := imageHead e.counter e.len
    let image := head ++ gcmTag key e.counter.toNat head e.buf ++ e.buf
    let n := s.pieceLen e (e.o2 + e.pos) (64 + e.len - e.pos)
    s.putPiece id e e.o2 (64 + e.len) ((image.drop e.pos).take n) [] fun e => { e with row := 1 }
  else s

/-- The key that an OPEN uses (R310, R411). -/
def State.openKey (s : State) (part : Nat) : BitVec 256 :=
  let c := s.context part
  c.importKey.getD (checkpointKey c.measurement)

/-- Overwrites with zeros the next piece of what an OPEN wrote, which counts no sector; after the last the command fails (R310). A write that
a home slice refuses by now has nothing left to overwrite. -/
def State.zeroOpened (s : State) (id : Nat) (e : Engine) : State :=
  if e.len ≤ e.pos then s.failEngine id 0x0455
  else
    let n := min 32 (e.len - e.pos)
    match s.engineWrite e (e.o2 + e.pos) (List.replicate n 0) [] with
    | .wait s => s
    | .done s => s.setEngine id { e with pos := e.pos + n }
    | .fail _ => s.setEngine id { e with pos := e.pos + n }

/-- The next step of OPEN (R310): the header's checks, the sectors, and the tag. buf holds the header and the ciphertext read. -/
def State.openPiece (s : State) (id : Nat) (e : Engine) : State :=
  let key := s.openKey e.part
  match e.row with
  | 0 =>
    (match s.engineRead e e.srcSpace e.src e.o1 64 with
    | .wait s => s
    | .fail c => s.failEngine id c
    | .data bs _ =>
      let x := s.context e.part
      let counter := BitVec.ofNat 64 (leNat ((bs.drop 8).take 8))
      if bs.take 48 != imageHead counter e.len then s.failEngine id 0x0209
      else if counter != x.saveCounter then s.failEngine id 0x0454
      else (s.setContext e.part { x with saveCounter := x.saveCounter + 1 }).setEngine id { e with row := 1, buf := bs, counter := counter })
  | 1 =>
    if e.pos < e.len then
      let n := s.pieceLen e (e.o2 + e.pos) (e.len - e.pos)
      match s.engineRead e e.srcSpace e.src (e.o1 + 64 + e.pos) n with
      | .wait s => s
      | .fail c => s.failEngine id c
      | .data bs _ =>
        let s := s.engineMoved e e.srcSpace e.src (e.o1 + 64 + e.pos) n false
        s.putPiece id { e with buf := e.buf ++ bs } e.o2 (e.len + 1) (gcmCrypt key e.counter.toNat e.pos bs) [] fun e => e
    else if (e.buf.drop 48).take 16 == gcmTag key e.counter.toNat (e.buf.take 48) (e.buf.drop 64) then
      let x := s.context e.part
      (s.setContext e.part { x with importKey := none }).setEngine id { e with row := 2 }
    else s.setEngine id { e with row := 3, pos := 0 }
  | 3 => s.zeroOpened id e
  | _ => s

/-- The pair key of a partition on a port (R413). -/
def Port.pairOf (p : Port) (part : Nat) : Option (BitVec 256) := (p.pairs.find? fun x => x.1 == part).map (·.2.2)

/-- The MAC of a granule under a pair key (R414). -/
def granuleMac (key : BitVec 256) (x : BitVec 128) : BitVec 64 := Config.kmac64 key (leBytes 16 x.toNat) "ZLR GRANULE"

/-- A tagged granule as it leaves under a pair: of type 5, with its MAC (R176, R413). -/
def sealedGranule (key : BitVec 256) (c : Cap) : BitVec 128 × Option (BitVec 64) :=
  let x := c.bits &&& ~~~0xFF0#128 ||| 0x050#128
  (x, some (granuleMac key x))

/-- Whether a capability's range lies entirely in HBM or entirely in the host window (R170). -/
def Cap.inOneSpace (c : Cap) : Bool :=
  decide (c.flat + c.len ≤ 0x6000000000) || (isHost c.flat && decide (c.flat + c.len ≤ 2 ^ 48))

/-- An arriving granule with the tag and MAC that it claims: delivered tagged only under a pair whose MAC verifies, only as a capability of
type 5, and as type 0 when this device sealed it for the pair and it carries the partition's colour (R176, R413). No value that breaks R170
is tagged (log 96). -/
def State.arrived (s : State) (port part : Nat) (x : BitVec 128) (claim : Bool) (mac : BitVec 64) : Cap :=
  let c : Cap := ⟨x, true⟩
  let home : Cap := ⟨x &&& ~~~0xFF0#128, true⟩
  match (look s.ports port).bind fun p => if p.up then (p.pairOf part).map fun k => (p, k) else none with
  | none => ⟨x, false⟩
  | some (p, k) =>
    if claim && mac == granuleMac k x && c.type == 5 && x.extractLsb' 0 4 == 0 && !c.allows (permW ||| permX) then
      (if c.colour.toNat != s.colourOf part || !p.sealed.contains (part, x) then c
       else if home.inOneSpace then home else ⟨x, false⟩)
    else ⟨x, false⟩

/-- The next sector of a RECV: from its SEND, whose KEEP TAGS decides for the pair (log 97), or from the port, whose data is free. -/
def State.recvPiece (s : State) (id : Nat) (e : Engine) : State :=
  if e.row == 0 || e.len ≤ e.pos then s
  else
    let n := s.pieceLen e (e.o1 + e.pos) (e.len - e.pos)
    let stay := fun (e : Engine) => { e with pos := e.len }
    if e.route == 1 then
      let keep := e.keeps e.keepTags 1 Cap.null 0 e.o1
      let gran := fun (i : Nat) => s.arrived e.peer e.part (Config.freeValue (s.fresh + 3 * i)) (Config.freeValue (s.fresh + 3 * i + 1) = 1#1)
        (Config.freeValue (s.fresh + 3 * i + 2))
      let bytes := fun (c : Cap) => leBytes 16 c.bits.toNat
      { s with fresh := s.fresh + 6 }.putPiece id e e.o1 e.len ((bytes (gran 0) ++ bytes (gran 1)).take n)
        (if keep then [(gran 0).tag, (gran 1).tag].take (n / 16) else []) stay
    else match e.mates.head?.bind fun k => (look s.engines k).map fun x => (k, x) with
      | none => s
      | some (k, x) =>
        if !s.engineOn x || x.stage != .running then s
        else match s.engineRead x x.srcSpace x.src (x.o1 + e.pos) n with
          | .wait s => s
          | .fail c => s.failEngine k c
          | .data bs tags =>
            let keep := e.keeps x.keepTags x.srcSpace x.src x.o1 e.o1
            let s := (s.engineMoved x x.srcSpace x.src (x.o1 + e.pos) n false).use 6 x.part n
            s.putPiece id e e.o1 e.len bs (if keep then tags else []) stay

/-- The next sector of a SEND to a port leaves the device: under a pair, and where KEEP TAGS asks for it, its tagged granules as type 5
(R176, R178, R413). -/
def State.sendPiece (s : State) (id : Nat) (e : Engine) : State :=
  if e.route != 1 || e.len ≤ e.pos then s
  else match s.engineRead e e.srcSpace e.src (e.o1 + e.pos) (min 32 (e.len - e.pos)) with
    | .wait s => s
    | .fail c => s.failEngine id c
    | .data bs tags =>
      let keep := e.keepTags && (e.srcSpace != 0 || e.src.allows permLC) && e.o1 % 16 == 0
      let out := fun (p : Port) => tags.zipIdx.map fun (t, i) =>
        let x := BitVec.ofNat 128 (leNat ((bs.drop (16 * i)).take 16))
        match p.pairOf e.part with
        | some key => if keep && t then sealedGranule key ⟨x, true⟩ else (x, none)
        | none => (x, none)
      let s := (s.engineMoved e e.srcSpace e.src (e.o1 + e.pos) bs.length false).use 6 e.part bs.length
      let kept := fun (p : Port) => (out p).foldl (fun l (x, mac) => if mac.isSome && !l.contains (e.part, x) then l ++ [(e.part, x)] else l) p.sealed
      { s with ports := modify s.ports e.peer fun p => { p with sent := out p, sealed := kept p } }.setEngine id { e with pos := e.pos + bs.length }

/-- A command's next packet takes its channel's token, where nothing else holds it back (R338). -/
def State.engineSent (s : State) (e : Engine) : State :=
  match e.head with
  | some a => if s.sendable e.core e.part a then s.sentPacket e.core a else s
  | none => s

/-- ENGINE_SECTOR_DELIVERY (R314). -/
def execEngineSectorDelivery (id : Nat) (s : State) : Out :=
  match look s.engines id with
  | none => ok s
  | some e =>
    if e.stage != .running || !s.engineOn e || (e.head).any (s.outranked e.core) then ok s
    else
      let s := s.engineSent e
      let t := match e.kind with
        | 5 => s.sealPiece id e
        | 6 => s.openPiece id e
        | 0x10 => s.gatherPiece id e
        | 0x11 => s.gatherPiece id e
        | 0x20 => s.sendPiece id e
        | 0x21 => s.recvPiece id e
        | 0x22 => s
        | _ => match e.run e.row 0 with
          | some x => s.runPiece id e x
          | none => s
      ok (if s.blocks.any (·.2.done) then { t with fresh := t.fresh + 1 } else t)

/-! ### The end of a command -/

/-- Whether a command has delivered its last sector (R316). -/
def State.engineDone (s : State) (e : Engine) : Bool :=
  let matesDone := e.mates.all fun k => match look s.engines k with
    | some x => x.stage == .running && decide (x.len ≤ x.pos)
    | none => true
  match e.kind with
  | 5 => e.row == 1
  | 6 => e.row == 2
  | 0x10 => decide (e.count ≤ e.row)
  | 0x11 => decide (e.count ≤ e.row)
  | 0x20 => if e.route == 1 then decide (e.len ≤ e.pos) else e.row != 0 && matesDone
  | 0x21 => e.row != 0 && decide (e.len ≤ e.pos)
  | 0x22 => e.diesLeft.isEmpty && matesDone
  | _ => (e.run e.row 0).isNone

/-- Gives up the lines a command still holds, and its entry (R315, R317). -/
def State.retire (s : State) (id : Nat) (e : Engine) : State :=
  let s := e.lines.foldl (fun s (b, l, _) => s.dropWriter b l) s
  { s with engines := del s.engines id }

/-- ENGINE_COMMAND_COMPLETION (R316). -/
def execEngineCommandCompletion (id : Nat) (s : State) : Out :=
  match look s.engines id with
  | none => ok s
  | some e =>
    if e.stage != .running || !s.engineDone e || !s.engineOn e then ok s
    else
      let s := s.retire id e
      ok (if e.noRecord then s else s.postRecord e.gang e.queue (recordOf (e.bits 0 31 0) 0 0 e.kind))

/-- ENGINE_COMMAND_FAILURE (R317). A collective on a port fails where the peer's command differs from it (R311). -/
def execEngineCommandFailure (id : Nat) (s : State) : Out :=
  match look s.engines id with
  | none => ok s
  | some e => match e.stage with
    | .failing code =>
      let s := match e.bar with
        | some r => s.barFail r code
        | none => s
      ok ((s.retire id e).postRecord e.gang e.queue (recordOf (e.bits 0 31 0) code.toNat 1 e.kind))
    | .running =>
      ok (if (e.kind == 0x20 || e.kind == 0x21) && e.route == 1 then s.failEngine id 0x0501 else s)
    | .accepted => ok s

end Sys2Proof.Machine
end

