-- ==== Sys2Proof/Machine/Floating.lean ====
section
/-! DEFINITION. Floating-point instructions (07): the shared forms that round by KIND, and one meaning per instruction. -/

namespace Sys2Proof.Machine

/-- The rounding mode of the prefix (R78, R136). -/
def Ctx.rm (c : Ctx) : Nat := c.pfx.kind.toNat

/-- Two sources, one source and three sources, rounded by KIND. -/
def lane2r (f : Nat → Word → Word → Word) (pb pa : Bool) (b a d : Reg) (s : State) : Out :=
  issue s { srcs := [.v a.toNat 1 pa .a, .v b.toNat 1 pb .b], dsts := [.v d.toNat 1] }
    fun c => c.writeV d.toNat fun l => f c.rm (c.v a.toNat .a l) (c.v b.toNat .b l)
def lane1r (f : Nat → Word → Word) (pa : Bool) (a d : Reg) (s : State) : Out :=
  issue s { srcs := [.v a.toNat 1 pa .a], dsts := [.v d.toNat 1] } fun c => c.writeV d.toNat fun l => f c.rm (c.v a.toNat .a l)
def lane3r (f : Nat → Word → Word → Word → Word) (x b a d : Reg) (s : State) : Out :=
  issue s { srcs := [.v a.toNat 1 false .none, .v b.toNat 1 false .none, .v x.toNat 1 false .none], dsts := [.v d.toNat 1] }
    fun c => c.writeV d.toNat fun l => f c.rm (c.v a.toNat .none l) (c.v b.toNat .none l) (c.v x.toNat .none l)

/-- The 16-bit float forms, rounded by RNE (R82, R136). -/
def shortF (f : Word → Word → Word) (x d : BitVec 5) (s : State) : Out :=
  issue s { srcs := [.v d.toNat 1 false .none, .v x.toNat 1 false .none], dsts := [.v d.toNat 1] }
    fun c => c.writeV d.toNat fun l => f (c.v d.toNat .none l) (c.v x.toNat .none l)

/-- QUANT (R146): every lane of a block supplies its operand, after the modifier, whether or not it is live; by R60 a live lane
checks each register it reads (log 24). -/
def quant (w : Nat) (pa : Bool) (a d : Reg) (s : State) : Out :=
  issue s { coll := true, k2 := false, dsts := [.v d.toNat 1],
            srcs := (List.range 16).map fun i => .cross a.toNat pa fun c l => c.srcLane .a (l / 16 * 16 + i) }
    fun c =>
      let block := fun h => quantBlock w ((List.range 16).map fun i => c.v a.toNat .a (16 * h + i))
      let lo := block 0
      let hi := block 1
      c.writeV d.toNat fun l =>
        let r := if l < 16 then lo else hi
        w32 (r.1 * 65536 + r.2.getD (l % 16) 0)

/-- DEQ (R147), which K2 lacks (R93). -/
def deqLanes (w : Nat) (pb pa : Bool) (b a d : Reg) (s : State) : Out :=
  issue s { k2 := false, srcs := [.v a.toNat 1 pa .a, .v b.toNat 1 pb .b], dsts := [.v d.toNat 1] }
    fun c => c.writeV d.toNat fun l => deq w (c.v a.toNat .a l) (c.v b.toNat .b l)

/-! ### Meanings -/

/-- FCMP_EQ (R141). -/
def execFcmpEq (pb pa : Bool) (b a : Reg) (d : KReg) (s : State) : Out := laneK fEq pb pa b a d s

/-- FCMP_NE (R141). -/
def execFcmpNe (pb pa : Bool) (b a : Reg) (d : KReg) (s : State) : Out := laneK (fun a b => !fEq a b) pb pa b a d s

/-- FCMP_LT (R141). -/
def execFcmpLt (pb pa : Bool) (b a : Reg) (d : KReg) (s : State) : Out := laneK fLt pb pa b a d s

/-- FCMP_LE (R141). -/
def execFcmpLe (pb pa : Bool) (b a : Reg) (d : KReg) (s : State) : Out := laneK fLe pb pa b a d s

/-- FCMP_UN (R141). -/
def execFcmpUn (pb pa : Bool) (b a : Reg) (d : KReg) (s : State) : Out := laneK fUn pb pa b a d s

/-- FADD (R137). -/
def execFadd (pb pa : Bool) (b a d : Reg) (s : State) : Out := lane2r (f32op f32.add) pb pa b a d s

/-- FSUB (R137). -/
def execFsub (pb pa : Bool) (b a d : Reg) (s : State) : Out := lane2r (f32op f32.sub) pb pa b a d s

/-- FMUL (R137). -/
def execFmul (pb pa : Bool) (b a d : Reg) (s : State) : Out := lane2r (f32op f32.mul) pb pa b a d s

/-- FMIN (R138). -/
def execFmin (pb pa : Bool) (b a d : Reg) (s : State) : Out := lane2 (fun a b => w32 (f32.min a.toNat b.toNat)) pb pa b a d s

/-- FMAX (R138). -/
def execFmax (pb pa : Bool) (b a d : Reg) (s : State) : Out := lane2 (fun a b => w32 (f32.max a.toNat b.toNat)) pb pa b a d s

/-- FDIV (R137). -/
def execFdiv (pb pa : Bool) (b a d : Reg) (s : State) : Out := lane2r (f32op f32.div) pb pa b a d s

/-- FABS (R138). -/
def execFabs (pa : Bool) (a d : Reg) (s : State) : Out := lane1 fabsBits pa a d s

/-- FNEG (R138). -/
def execFneg (pa : Bool) (a d : Reg) (s : State) : Out := lane1 fnegBits pa a d s

/-- FSQRT (R137). -/
def execFsqrt (pa : Bool) (a d : Reg) (s : State) : Out := lane1r (fun rm a => w32 (f32.sqrt rm a.toNat)) pa a d s

/-- FRCP (R139). -/
def execFrcp (pa : Bool) (a d : Reg) (s : State) : Out := lane1 frcpOf pa a d s

/-- FRSQ (R139). -/
def execFrsq (pa : Bool) (a d : Reg) (s : State) : Out := lane1 frsqOf pa a d s

/-- FEXP2 (R139). -/
def execFexp2 (pa : Bool) (a d : Reg) (s : State) : Out := lane1 fexp2Of pa a d s

/-- FLOG2 (R139). -/
def execFlog2 (pa : Bool) (a d : Reg) (s : State) : Out := lane1 flog2Of pa a d s

/-- FSIN (R139). -/
def execFsin (pa : Bool) (a d : Reg) (s : State) : Out := lane1 fsinOf pa a d s

/-- FCOS (R139). -/
def execFcos (pa : Bool) (a d : Reg) (s : State) : Out := lane1 fcosOf pa a d s

/-- FMA_F32 (R140). -/
def execFmaF32 (x b a d : Reg) (s : State) : Out := lane3r (fun rm a b c => w32 (f32.fma rm a.toNat b.toNat c.toNat)) x b a d s

/-- HADD_F16 (R142). -/
def execHaddF16 (pb pa : Bool) (b a d : Reg) (s : State) : Out := lane2r (fun rm => halves2 (f16.add rm)) pb pa b a d s

/-- HSUB_F16 (R142). -/
def execHsubF16 (pb pa : Bool) (b a d : Reg) (s : State) : Out := lane2r (fun rm => halves2 (f16.sub rm)) pb pa b a d s

/-- HMUL_F16 (R142). -/
def execHmulF16 (pb pa : Bool) (b a d : Reg) (s : State) : Out := lane2r (fun rm => halves2 (f16.mul rm)) pb pa b a d s

/-- HMIN_F16 (R142). -/
def execHminF16 (pb pa : Bool) (b a d : Reg) (s : State) : Out := lane2 (halves2 f16.min) pb pa b a d s

/-- HMAX_F16 (R142). -/
def execHmaxF16 (pb pa : Bool) (b a d : Reg) (s : State) : Out := lane2 (halves2 f16.max) pb pa b a d s

/-- HADD_BF16 (R142). -/
def execHaddBf16 (pb pa : Bool) (b a d : Reg) (s : State) : Out := lane2r (fun rm => halves2 (bf16.add rm)) pb pa b a d s

/-- HSUB_BF16 (R142). -/
def execHsubBf16 (pb pa : Bool) (b a d : Reg) (s : State) : Out := lane2r (fun rm => halves2 (bf16.sub rm)) pb pa b a d s

/-- HMUL_BF16 (R142). -/
def execHmulBf16 (pb pa : Bool) (b a d : Reg) (s : State) : Out := lane2r (fun rm => halves2 (bf16.mul rm)) pb pa b a d s

/-- HMIN_BF16 (R142). -/
def execHminBf16 (pb pa : Bool) (b a d : Reg) (s : State) : Out := lane2 (halves2 bf16.min) pb pa b a d s

/-- HMAX_BF16 (R142). -/
def execHmaxBf16 (pb pa : Bool) (b a d : Reg) (s : State) : Out := lane2 (halves2 bf16.max) pb pa b a d s

/-- HFMA_F16 (R143). -/
def execHfmaF16 (x b a d : Reg) (s : State) : Out := lane3r (fun rm => halves3 (f16.fma rm)) x b a d s

/-- HFMA_BF16 (R143). -/
def execHfmaBf16 (x b a d : Reg) (s : State) : Out := lane3r (fun rm => halves3 (bf16.fma rm)) x b a d s

/-- CVT_F32_I32 (R144). -/
def execCvtF32I32 (pa : Bool) (a d : Reg) (s : State) : Out := lane1r cvtF32S pa a d s

/-- CVT_F32_N32 (R144). -/
def execCvtF32N32 (pa : Bool) (a d : Reg) (s : State) : Out := lane1r cvtF32N pa a d s

/-- CVT_I32_F32 (R145). -/
def execCvtI32F32 (pa : Bool) (a d : Reg) (s : State) : Out := lane1r cvtS pa a d s

/-- CVT_N32_F32 (R145). -/
def execCvtN32F32 (pa : Bool) (a d : Reg) (s : State) : Out := lane1r cvtN pa a d s

/-- CVT_F16_F32 (R144). -/
def execCvtF16F32 (pa : Bool) (a d : Reg) (s : State) : Out := lane1r (fun rm a => w32 (reformat f32 f16 rm a.toNat)) pa a d s

/-- CVT_BF16_F32 (R144). -/
def execCvtBf16F32 (pa : Bool) (a d : Reg) (s : State) : Out := lane1r (fun rm a => w32 (reformat f32 bf16 rm a.toNat)) pa a d s

/-- CVT_F32_F16 (R144). -/
def execCvtF32F16 (pa : Bool) (a d : Reg) (s : State) : Out := lane1 (fun a => w32 (reformat f16 f32 0 (a.toNat % 65536))) pa a d s

/-- CVT_F32_BF16 (R144). -/
def execCvtF32Bf16 (pa : Bool) (a d : Reg) (s : State) : Out := lane1 (fun a => w32 (reformat bf16 f32 0 (a.toNat % 65536))) pa a d s

/-- FRND (R144). -/
def execFrnd (pa : Bool) (a d : Reg) (s : State) : Out := lane1r frndBits pa a d s

/-- QUANT_SB7 (R146). -/
def execQuantSb7 (pa : Bool) (a d : Reg) (s : State) : Out := quant 7 pa a d s

/-- QUANT_SB4 (R146). -/
def execQuantSb4 (pa : Bool) (a d : Reg) (s : State) : Out := quant 4 pa a d s

/-- QUANT_SB2 (R146). -/
def execQuantSb2 (pa : Bool) (a d : Reg) (s : State) : Out := quant 2 pa a d s

/-- DEQ_SB7 (R147). -/
def execDeqSb7 (pb pa : Bool) (b a d : Reg) (s : State) : Out := deqLanes 7 pb pa b a d s

/-- DEQ_SB4 (R147). -/
def execDeqSb4 (pb pa : Bool) (b a d : Reg) (s : State) : Out := deqLanes 4 pb pa b a d s

/-- DEQ_SB2 (R147). -/
def execDeqSb2 (pb pa : Bool) (b a d : Reg) (s : State) : Out := deqLanes 2 pb pa b a d s

/-- FADD_SHORT (R81). -/
def execFaddShort (x d : BitVec 5) (s : State) : Out := shortF (f32op f32.add 0) x d s

/-- FSUB_SHORT (R81). -/
def execFsubShort (x d : BitVec 5) (s : State) : Out := shortF (f32op f32.sub 0) x d s

/-- FMUL_SHORT (R81). -/
def execFmulShort (x d : BitVec 5) (s : State) : Out := shortF (f32op f32.mul 0) x d s

/-- FMAX_SHORT (R81). -/
def execFmaxShort (x d : BitVec 5) (s : State) : Out := shortF (fun a b => w32 (f32.max a.toNat b.toNat)) x d s

end Sys2Proof.Machine
end

