-- ==== Sys2Proof/Machine/Messages.lean ====
section
/-! DEFINITION. Delivery of active messages and handler gangs (17, R343 to R349). -/

namespace Sys2Proof.Machine

/-! ### Delivery (R343, R344) -/

def Msg.core (m : Msg) : Nat := (m.dest.extractLsb' 17 9).toNat
def Msg.handler (m : Msg) : Nat := (m.dest.extractLsb' 0 8).toNat
def Msg.route (m : Msg) : Nat := (m.dest.extractLsb' 30 2).toNat
def Msg.port (m : Msg) : Nat := (m.dest.extractLsb' 26 4).toNat

/-- Whether the device goes on reading a partition's overflow area: not after a failed access halted the partition (R442). -/
def State.canUnspill (s : State) (m : Msg) : Bool := ((s.part m.part).map fun p => !p.broken) == some true

/-- Whether an overflow area holds a message for a core that goes ahead of a new arrival m (R344): one that the device can return, or one of the
same partition (R343; log 36). -/
def State.spilledFor (s : State) (m : Msg) : Bool :=
  s.overflow.any fun x => x.msg.core == m.core && (s.canUnspill x.msg || x.msg.part == m.part)

/-- Where the place of a message in its partition's overflow area lies (R344, R358). -/
def overflowAt (p : Part) (n : Nat) : Nat := p.area + 0x900000 + 64 * n

/-- The bytes of a message in the overflow area: in confidential mode sealed under the context key. They have no layout (R344; log 36). -/
def State.overflowBytes (s : State) (part stamp : Nat) : List Byte :=
  leBytes 64 (if s.confidential then (Config.sealedRecord (s.keyOf part) 0 stamp : BitVec 512) else Config.freeValue stamp).toNat

/-- The lowest place of an overflow area that no message holds (log 36). -/
def State.overflowPlace (s : State) (part : Nat) : Nat :=
  let used := (s.overflow.filter fun x => x.msg.part == part).map (·.place)
  ((List.range (used.length + 1)).find? fun n => !used.contains n).getD 0

/-- A message arrives at its destination core: into the inbound queue, or the overflow area. The answer says whether it has been accepted: not
while the area is full, nor where the device may not write there (R344, R442). -/
def State.arrive (s : State) (m : Msg) : State × Bool :=
  match s.part m.part with
  | none => (s, true)
  | some p =>
    let k := s.core m.core
    let n := s.overflowPlace m.part
    if !p.inUse then (s, true)
    else if k.inbound.length < 64 && !s.spilledFor m then (s.setCore m.core { k with inbound := k.inbound ++ [m] }, true)
    else if 16384 ≤ n || p.broken then (s, false)
    else if !s.ownArea p (overflowAt p n) 64 then (s.areaHalt m.part m.core, false)
    else
      ({ s.devWrite m.part (overflowAt p n) (s.overflowBytes m.part s.fresh) with
        overflow := s.overflow ++ [{ msg := m, place := n, stamp := s.fresh }], fresh := s.fresh + 1 }, true)

/-- A message whose bytes in the overflow area have changed, outside confidential mode: all but its core is free (log 36). -/
def Msg.changed (m : Msg) (n : Nat) : Msg :=
  { m with
    sender := Config.freeValue n
    dest := (m.dest &&& 0x03FE0000) ||| ((Config.freeValue (n + 1) : BitVec 8).setWidth 32)
    payload := (List.range 16).map fun i => Config.freeValue (n + 2 + i) }

/-- Overflow messages of a core return to its inbound queue while it has room, in arrival order (R344). A read that the device may not make, or
bytes that do not verify in confidential mode, halt the partition, and its messages stay (R442; log 36). -/
def State.unspillMsgs (s : State) (core : Nat) : Nat → State
  | 0 => s
  | n + 1 =>
    let k := s.core core
    match if k.inbound.length < 64 then s.overflow.find? fun x => x.msg.core == core && s.canUnspill x.msg else none with
    | none => s
    | some x => match s.part x.msg.part with
      | none => s
      | some p =>
        let a := overflowAt p x.place
        let whole := s.bytesAt 0 a 64 == s.overflowBytes x.msg.part x.stamp
        if !s.ownArea p a 64 || (s.confidential && !whole) then (s.areaHalt x.msg.part core).unspillMsgs core n
        else
          let m := if whole then x.msg else x.msg.changed s.fresh
          let s := (s.setCore core { k with inbound := k.inbound ++ [m] }).touchRun a 64 x.msg.part false
          { s with overflow := s.overflow.erase x, fresh := s.fresh + 18 }.unspillMsgs core n

/-- The same on every core that overflow messages wait for, as inbound entries free there. -/
def State.unspillAll (s : State) : State :=
  ((s.overflow.map fun x => x.msg.core).eraseDups).foldl (fun s n => s.unspillMsgs n 64) s

/-- The message at a place of a core's outbound queue leaves it; its 64 bytes count toward its sender's energy, on the optics or as a beat of the
crossbar (R342, R396). -/
def State.unsend (s : State) (core i : Nat) : State :=
  let k := s.core core
  let s := match k.outbound[i]? with
    | some m => if m.route == 1 then s.use 6 m.part 64 else s.use 4 m.part 1
    | none => s
  s.setCore core { k with outbound := k.outbound.eraseIdx i }

/-- The first message of a core's outbound queue that its destination accepts; those to one destination keep their order (R343). On ROUTE 1
it leaves the device, or is lost with its link (R345). -/
def State.sendNext (s : State) (core : Nat) : List Msg → Nat → List (Nat × Nat × Nat) → State
  | [], _, _ => s
  | m :: r, i, held =>
    let dest := (m.route, m.port, m.core)
    if held.contains dest then s.sendNext core r (i + 1) held
    else if m.route == 1 then
      (match look s.ports m.port with
      | some p => if p.up then s.unsend core i else (s.unsend core i).post 9 0 0 0 3 m.port
      | none => (s.unsend core i).post 9 0 0 0 3 m.port)
    else match s.arrive m with
      | (s, true) => s.unsend core i
      | (s, false) => s.sendNext core r (i + 1) (dest :: held)

/-- A message is discarded for want of a handler: the host event names the handler in CODE, and the port (kind 3) or the partition (kind 4) in
LOCATION (R345, R384, R406; log 37). -/
def State.discarded (s : State) (handler kind num : Nat) : State := s.post 8 0 handler 0 kind num

/-- MESSAGE_ARRIVAL (R344): from core src, or from the peer on a port to the partition src paired there (R345). -/
def execMessageArrival (src : Nat) (peer : Option PeerMessage) (s : State) : Out :=
  match peer with
  | none => ok (s.sendNext src (s.core src).outbound 0 [])
  | some x =>
    match look s.ports x.port, s.part src with
    | some p, some q =>
      if !p.up || !(p.pairs.any fun y => y.1 == src) || 512 ≤ x.dest || !q.coreSet.getLsbD x.dest then ok s
      else if (look q.handlers x.handler).isNone then ok (s.discarded x.handler 3 x.port)
      else
        let m : Msg :=
          { part := src, sender := BitVec.ofNat 32 (2 ^ 30 + x.port * 2 ^ 26 + x.sender % 512 * 2 ^ 17),
            dest := BitVec.ofNat 32 (x.dest * 2 ^ 17 + x.handler % 256),
            payload := (List.range 16).map fun i => x.payload.getD i 0, fromHandler := false }
        ok (s.arrive m).1
    | _, _ => ok s

/-! ### Handler gangs (R346, R348) -/

/-- A handler gang as R348 starts it. -/
def handlerGang (bid seat order : Nat) (h : Header) (code : Cap) (m : Msg) : Gang :=
  let g := Gang.start bid 0 seat order h.compat h.entry code
  let g := (List.range 16).foldl (fun g i => (g.setV (vKey .u i) 0 (m.payload.getD i 0)).setS (sKey .u i) (m.payload.getD i 0)) g
  g.setS (sKey .u 16) m.sender

/-- HANDLER_SPAWN (R346): a free handler seat takes the oldest message of the partition that occupies the core. A message whose handler
entry is empty is discarded (R384). -/
def execHandlerSpawn (core : Nat) (s : State) : Out :=
  let k := s.core core
  match k.occ.bind fun pid => (s.part pid).map fun p => (pid, p) with
  | none => ok s
  | some (pid, p) =>
    let busy := s.gangs.filterMap fun (_, g) => if s.coreOf g == core && s.partOf g == pid && 32 ≤ g.seat then some g.seat else none
    match k.inbound.find? fun m => m.part == pid, [32, 33].find? fun n => !busy.contains n with
    | some m, some seat =>
      let drop := fun (s : State) =>
        (s.setCore core { s.core core with inbound := (s.core core).inbound.erase m }).unspillMsgs core 64
      (match look p.handlers m.handler with
      | none => ok ((drop s).discarded m.handler 4 pid)
      | some code => match s.readHeader pid p code with
        | .error (some s) => ok s
        | .error none => ok ((drop (s.pageDone 0 pid code.flat 16)).discarded m.handler 4 pid)
        | .ok w =>
          let h := headerOf w
          let (s, bid) := (drop (s.headerDone pid code)).newId
          let s := s.setBlock bid (Block.start 0 pid 0xFFFFFFFF core 1 none true h)
          let (s, gid) := s.newId
          let g := s.vectors p { handlerGang bid seat gid h code m with recorded := p.recorded }
          ok ((s.setGang gid g).clearL1 core))
    | _, _ => ok s

end Sys2Proof.Machine
end

