-- ==== Sys2Proof/Machine/Launch.lean ====
section
/-! DEFINITION. Launches, graph triggers and messages (16, 17), and the instructions of the hypervisor and the security controller
(15, 19, 20): major opcodes 0x72 to 0x74. -/

namespace Sys2Proof.Machine

/-- Sends the one request of an instruction that executes once per issue, and holds the split until it is served. -/
def Ctx.request (c : Ctx) (acc : Access) (addr size : Nat) (cap : Cap) : Act :=
  let (s, inst) := c.s.newId
  .busy (s.send { c.req inst 32 acc addr size cap [] with acq := false })

/-- The offset an s register names. -/
def Ctx.sOff (c : Ctx) (r : Reg) : Int := (c.sv r.toNat).toNat

/-- LAUNCH (R328), a release at device scope (R326). Without LC the record's capabilities arrive untagged. -/
def execLaunch (m : CReg) (a : Reg) (s : State) : Out :=
  issue s { srcs := [.s a.toNat 1 false, .c m.toNat] } fun c =>
    let x := c.cv m.toNat
    if c.s.openFor c.gid c.active || c.s.acquiring c.gid c.active then .stall
    else match check15 x permR (c.sOff a) 64 64 with
      | some (cause, addr) => .trap cause addr 0
      | none => c.request (.launch (x.allows permLC)) (x.at (c.sOff a)) 64 x

/-- GRAPH_TRIG (R332): the list's COUNT, and with it the rest of its checks, is read at the home slice. -/
def execGraphTrig (m : CReg) (a b : Reg) (s : State) : Out :=
  issue s { k2 := false, srcs := [.s a.toNat 1 false, .s b.toNat 1 false, .c m.toNat] } fun c =>
    let x := c.cv m.toNat
    if c.s.acquiring c.gid c.active then .stall
    else match check15 x permR (c.sOff b) 16 16 with
      | some (cause, addr) => .trap cause addr 0
      | none => c.request (.graph (c.sv a.toNat).toNat) (x.at (c.sOff b)) 16 x

/-- Whether a port holds an attested pair for a partition and is up (R340). -/
def State.paired (s : State) (port part : Nat) : Bool :=
  match look s.ports port with
  | some p => p.up && p.pairs.any fun x => x.1 == part
  | none => false

/-- AMSEND (R339, R340), a release at device scope (R341). -/
def execAmsend (a b : Reg) (s : State) : Out :=
  issue s { wf := b == 0 || b == 16 || b == 32, srcs := [.s a.toNat 1 false, .s b.toNat 16 false] } fun c =>
    let d := c.sv a.toNat
    let route := (d.extractLsb' 30 2).toNat
    let port := (d.extractLsb' 26 4).toNat
    let dest := (d.extractLsb' 17 9).toNat
    let handler := (d.extractLsb' 0 8).toNat
    let k := c.s.core c.core
    if d.extractLsb' 8 9 != 0 || 2 ≤ route || (if route == 0 then port != 0 else 12 ≤ port) then .trap 59 0 1
    else if route == 0 && !c.part.coreSet.getLsbD dest then .trap 59 0 2
    else if route == 0 && (look c.part.handlers handler).isNone then .trap 59 0 3
    else if route == 1 && !c.s.paired port c.pid then .trap 59 0 4
    else if c.s.openFor c.gid c.active then .stall
    else if 16 ≤ k.outbound.length || (!c.blk.handler && 12 ≤ (k.outbound.filter fun m => !m.fromHandler).length) then
      .park c.s .outbound []
    else
      let msg : Msg :=
        { part := c.pid, sender := BitVec.ofNat 32 (c.core * 2 ^ 17), dest := d,
          payload := (List.range 16).map fun i => c.sv (b.toNat + i), fromHandler := c.blk.handler }
      .done (c.s.setCore c.core { k with outbound := k.outbound ++ [msg] }) []

/-- HCMD (R381), a release at device scope. -/
def execHcmd (m : CReg) (a b : Reg) (s : State) : Out :=
  issue s { priv := .h, srcs := [.s a.toNat 1 false, .c m.toNat], dsts := [.s b.toNat 1] } fun c =>
    let x := c.cv m.toNat
    if c.s.openFor c.gid c.active then .stall
    else match check15 x (permR ||| permSYS) (c.sOff a) 16 32 with
      | some (cause, addr) => .trap cause addr 0
      | none =>
        if 16 ≤ c.s.cmdQueue.length then .stall
        else
          let s := { c.s with gangs := modify c.s.gangs c.gid fun g => g.emptyS (c.sk b.toNat) }
          .done { s with cmdQueue := s.cmdQueue ++
            [{ addr := x.at (c.sOff a), cap := some (x, (c.sv a.toNat).toNat), dest := some (c.gid, c.sk b.toNat) }] } []

/-- SWEEP (R388). -/
def execSweep (s : State) : Out := issue s { priv := .h } fun c => .done { c.s with sweepAsked := true } []

/-- Whether a value names a partition other than the one whose context occupies the issuing seat (R372). -/
def Ctx.otherPart (c : Ctx) (x : Word) : Option Part :=
  if x.extractLsb' 6 26 != 0 || x.toNat == c.pid then none
  else match c.s.part x.toNat with
    | some p => if p.inUse then some p else none
    | none => none

/-- Halts a partition on every core that it occupies, and removes it from the turns (R369, R372): its context is halted (R378). -/
def State.haltPart (s : State) (p : Nat) : State :=
  let s := { s with
    parts := modify s.parts p fun x => { x with halted := true }
    cores := s.cores.map fun (k, c) => (k, if c.occ == some p then { c with halting := true } else c) }
  let x := s.context p
  if x.state == 1 then s.setContext p { x with state := 2 } else s

/-- PHALT (R372): the split is held until the context has left every core that it occupied. -/
def execPhalt (a : Reg) (s : State) : Out :=
  issue s { priv := .h, srcs := [.s a.toNat 1 false] } fun c =>
    let p := (c.sv a.toNat).toNat
    match c.otherPart (c.sv a.toNat) with
    | none => .trap 32 0 0
    | some x =>
      let cores := (c.s.cores.filter fun (_, k) => k.occ == some p).map (·.1)
      let s := if x.halted then c.s else c.s.haltPart p
      if cores.isEmpty then .done s []
      else
        let (s, inst) := s.newId
        .busy (s.send { { c with s := s }.req inst 32 (.phalt p cores) 0 0 Cap.null [] with acq := false, stage := .waiting })

/-- PRESUME (R372). Messages that a broken overflow area held back return (R344). -/
def execPresume (a : Reg) (s : State) : Out :=
  issue s { priv := .h, srcs := [.s a.toNat 1 false] } fun c =>
    let p := (c.sv a.toNat).toNat
    match c.otherPart (c.sv a.toNat) with
    | none => .trap 32 0 0
    | some x => match x.failed with
      | some cause => .trap cause 0 0
      | none =>
        if !x.halted then .done c.s []
        else
          let s := c.s.setPart p { x with halted := false, broken := false }
          let y := s.context p
          .done (if y.state == 2 then s.setContext p { y with state := 1 } else s).unspillAll []

def Channel.closed : Channel := { state := 0, host := 0, device := 0, resync := 0, part := 0, first := 0, count := 0 }

/-- Sets a resync request of a channel; with both set the channel is open again with HOST COUNT = DEVICE COUNT (R320). -/
def Channel.request (x : Channel) (m : BitVec 2) : Channel :=
  let r := x.resync ||| m
  if r == 3 then { x with host := x.device, state := 1, resync := 0 } else { x with resync := r }

/-- RESYNC (R320). -/
def execResync (a : Reg) (s : State) : Out :=
  issue s { priv := .h, srcs := [.s a.toNat 1 false] } fun c =>
    let n := (c.sv a.toNat).toNat
    let x := lookD Channel.closed c.s.channels n
    if 16 ≤ n || x.state != 2 then .trap 32 0 0
    else .done { c.s with channels := put Channel.closed c.s.channels n (x.request 2) } []

/-- ESIGN (R401). -/
def execEsign (m : CReg) (a : Reg) (s : State) : Out :=
  issue s { priv := .s, srcs := [.s a.toNat 1 false, .c m.toNat] } fun c =>
    let x := c.cv m.toNat
    if c.s.acquiring c.gid c.active then .stall
    else match check15 x (permW ||| permSYS) (c.sOff a) 4864 128 with
      | some (cause, addr) => .trap cause addr 0
      | none => c.request .sign (x.at (c.sOff a)) 4864 x

end Sys2Proof.Machine
end

