-- ==== Sys2Proof/Machine/MatrixEvents.lean ====
section
/-! DEFINITION. The matrix engine after issue (R265 to R267), tile loads (R259) and drains (R272 to R274). -/

namespace Sys2Proof.Machine

/-! ### The matrix engine -/

def KeySlot.empty : KeySlot := { state := 0, colour := 0, key := 0 }
def State.keySlot (s : State) (n : Nat) : KeySlot := lookD KeySlot.empty s.keySlots n

/-- Whether the stationary port may use a key slot for a partition (R379). -/
def State.keyUsable (s : State) (p : Part) (n : Nat) : Bool :=
  decide (p.keyFirst ≤ n) && decide (n < p.keyFirst + p.keyCount) && (s.keySlot n).state == 1 && (s.keySlot n).colour == p.colour

/-- What the stationary port fails on at a 16-byte unit: its cause (R267). -/
def State.unitBad (s : State) (op : MatrixOp) (p : Part) (c : Cap) (a : Nat) : Option Nat :=
  match s.reach op.core op.part c.colour c.gen false a 16 with
  | .fail cause _ => some cause
  | _ =>
    if isHost a then none
    else if s.poisoned a 16 then some 20
    else
      let x := s.extent (extentOf a)
      if extCipher x && !s.keyUsable p (extKey x) then some 86 else none

/-- A unit as the multipliers get it: decrypted where its extent holds ciphertext (R210, R265). -/
def State.unitAt (s : State) (part a : Nat) : List Byte :=
  let x := s.extent (extentOf a)
  let raw := s.bytesAt (s.pasid part) a 16
  if !isHost a && extCipher x then leBytes 16 (Config.xtsDecrypt (s.keySlot (extKey x)).key a (BitVec.ofNat 128 (leNat raw))).toNat else raw

/-- The addresses of the 16-byte units of a run. -/
def unitAddrs (a n : Nat) : List Nat := (List.range (n / 16)).map fun i => a + 16 * i

/-- The B operand of MMA.S: its rows, or the failing unit of lowest address (R265, R267). -/
def State.streamed (s : State) (op : MatrixOp) (p : Part) (w : Cap × Nat × Nat × Nat) : Except (Nat × Nat) (List (List Nat)) :=
  let (cap, off, pitch, n) := w
  let regions := imageRegions op.cfgA n off pitch
  let units := regions.flatMap fun x => unitAddrs (cap.at x.1) x.2
  let bad := units.filterMap fun a => (s.unitBad op p cap a).map fun cause => (cause, a)
  match bad with
  | x :: r => .error (r.foldl (fun m y => if y.2 < m.2 then y else m) x)
  | [] =>
    let bytes := regions.map fun x => (unitAddrs (cap.at x.1) x.2).flatMap (s.unitAt op.part)
    let scales := bytes.getD n []
    let per := scalesPerRow op.cfgA
    .ok ((List.range n).map fun i => rowElems op.cfgA (bytes.getD i []) fun j =>
      leNat ((scales.drop (2 * (i * per + j))).take 2))

/-- A wait for the translation of a host page that holds weights (R203). -/
def State.weightsWait (s : State) (op : MatrixOp) : Option State :=
  match op.weights, op.fault with
  | some (cap, off, pitch, n), none =>
    ((imageRegions op.cfgA n off pitch).flatMap fun x => unitAddrs (cap.at x.1) x.2).findSome? fun a =>
      if !isHost a then none
      else match s.reach op.core op.part cap.colour cap.gen false a 16 with
        | .wait s => some s
        | _ => none
  | _, _ => none

/-- The per-core rate of a format in MACs per clk (R15). -/
def rateOf (format : Nat) : Nat :=
  match format with
  | 4 => 16384
  | 5 => 32768
  | 6 => 65536
  | _ => 8192

/-- The clk of occupancy of an instruction (R266). -/
def MatrixOp.occupancy (op : MatrixOp) : Nat :=
  let n := match op.weights with
    | some (_, _, _, n) => n
    | none => cfgRows op.cfgB
  let r := min (rateOf (cfgFormat op.cfgA)) (rateOf (cfgFormat op.cfgB))
  (cfgRows op.cfgA * n * op.kCount + r - 1) / r

/-- The multiply-accumulates of an instruction (R266). -/
def MatrixOp.macs (op : MatrixOp) : Nat :=
  cfgRows op.cfgA * (match op.weights with
    | some (_, _, _, n) => n
    | none => cfgRows op.cfgB) * op.kCount

/-- MATRIX_START (R266): the next matrix instruction of the core reads its operands. A tile row with an uncorrectable error makes the update
fail as an operand unit of the stationary port does (R213, R267; log 91). -/
def execMatrixStart (core : Nat) (s : State) : Out :=
  match s.matrix.find? fun o => o.core == core && !o.started with
  | none => ok s
  | some op => match s.block op.block, s.part op.part with
    | some b, some p =>
      if (s.core core).occ != some op.part || !b.tileFull op.ta || (op.weights.isNone && !b.tileFull op.tb) ||
          op.head.any (s.outranked core) then ok s
      else match s.weightsWait op with
      | some s => ok s
      | none =>
        let op1 := { op with started := true, rowsA := b.tileElems op.ta op.cfgA }
        let hit := b.tileHit op.ta op.cfgA || (op.weights.isNone && b.tileHit op.tb op.cfgB)
        let op1 := if hit then { op1 with fault := op.fault.or (some (20, 0)) } else op1
        let op2 := match op.weights with
          | none => { op1 with rowsB := b.tileElems op.tb op.cfgB }
          | some w => match op1.fault, s.streamed op p w with
            | some _, _ => op1
            | none, .ok rows => { op1 with rowsB := rows }
            | none, .error e => { op1 with fault := some e }
        let s := match op.weights with
          | some (cap, off, pitch, n) =>
            let rs := imageRegions op.cfgA n off pitch
            let s := (s.sentPacket core (cap.at off)).count core op.part 0x13 (rs.foldl (fun (m : Nat) (x : Nat × Nat) => m + x.2) 0)
            rs.foldl (fun (t : State) (x : Nat × Nat) => (t.touchRun (cap.at x.1) x.2 op.part false).carry op.part (cap.at x.1) x.2) s
          | none => s
        let k := s.core core
        let s := s.setCore core { k with matrixBusy := k.matrixBusy + op.occupancy }
        ok { s with matrix := s.matrix.map fun (o : MatrixOp) => if o.id == op.id then op2 else o }
    | _, _ => ok { s with matrix := s.matrix.filter fun o => o.id != op.id }

/-- The update of a bank by a matrix instruction (R261). -/
def Block.matrixUpdate (b : Block) (op : MatrixOp) : Block :=
  op.rowsA.zipIdx.foldl (fun b (ra, i) => op.rowsB.zipIdx.foldl (fun b (rb, j) =>
    b.setElem op.bank i j (macElem op (b.elem op.bank i j) ra rb)) b) b

/-- MATRIX_COMPLETION (R266, R267): the update, made whole or discarded. -/
def execMatrixCompletion (core : Nat) (s : State) : Out :=
  match s.matrix.find? fun o => o.core == core with
  | none => ok s
  | some op =>
    if !op.started then ok s
    else
      let s := { s with matrix := s.matrix.filter fun o => o.id != op.id }
      match s.block op.block with
      | none => ok s
      | some b =>
        let i := b.bankI op.bank
        let b := match op.fault with
          | some (cause, addr) => if i.cause == 0 then b.setBank op.bank { i with cause := cause, addr := addr } else b
          | none => if i.cause != 0 then b else b.matrixUpdate op
        ok (((s.setBlock op.block b).count core op.part 0x0C 1).count core op.part 0x12 op.macs)

/-! ### Tile loads -/

/-- What a read of an image region gives: bytes, a failure, or a wait in a state. -/
inductive Got where
  | bytes (bs : List Byte)
  | fail (cause addr : Nat)
  | wait (s : State)

/-- Reads size bytes at an offset of a space: the flat space at the home slices, scratchpad and window when their lines are full (R206,
R259). -/
def State.readSpace (s : State) (core part block space : Nat) (cap : Cap) (off size : Nat) : Got :=
  if space == 0 then
    let a := cap.at off
    match s.reach core part cap.colour cap.gen false a size with
    | .wait s => .wait s
    | .fail cause addr => .fail cause addr
    | .ok => if s.poisoned a size then .fail 20 a else .bytes (s.bytesAt (s.pasid part) a size)
  else match s.padPlace block (space == 2) off size with
    | none => .fail 2 off
    | some (id, o) => match s.block id with
      | none => .fail 2 off
      | some b =>
        if !(s.emptyLines [(id, o)] size).isEmpty then .wait s
        else if b.padPoisoned o size then .fail 20 off
        else .bytes (b.padBytes o size)

/-- Lands one row, or the scale area, of a tile image. The bits of a row after its last element are ignored when read and written as 0
(R134). -/
def Block.land (b : Block) (t : TileOp) (bs : List Byte) : Block :=
  if t.next < cfgRows t.cfg then b.setRow t.tile t.next (leBytes 128 (leNat bs % 2 ^ (cfgCols t.cfg * elemBits (cfgFormat t.cfg))))
  else
    let per := scalesPerRow t.cfg
    (List.range (cfgRows t.cfg)).foldl (fun b i =>
      b.setScales t.tile i ((List.range per).map fun j => leNat ((bs.drop (2 * (i * per + j))).take 2))) b

/-- The next region of a tile load has been dealt with: after the last the tile is full, unless a trap has yet to be taken. -/
def State.tileNext (s : State) (id : Nat) (t : TileOp) : State :=
  let t := { t with next := t.next + 1 }
  if t.next < t.steps || t.fault.isSome then { s with tileOps := set s.tileOps id t }
  else { s with
    tileOps := del s.tileOps id
    blocks := modify s.blocks t.block fun b => { b with tileEmpty := put false b.tileEmpty t.tile false } }

/-- TILE_FILL (R259): the next row lands; with the last row and scale word the tile is full. -/
def execTileFill (id : Nat) (s : State) : Out :=
  match look s.tileOps id with
  | none => ok s
  | some t => match (imageRegions t.cfg (cfgRows t.cfg) t.offset t.pitch)[t.next]? with
    | none => ok s
    | some (off, size) =>
      let a := t.cap.at off
      if (s.core t.core).occ != some t.part || (t.space == 0 && (s.outranked t.core a || s.bytesBehind t.gang t.mask id a size false)) then ok s
      else match s.readSpace t.core t.part t.block t.space t.cap off size with
        | .wait s => ok s
        | .fail cause addr => ok (s.tileNext id { t with fault := t.fault.or (some (cause, addr)) })
        | .bytes bs =>
          let far := t.space != 0 && ((s.padPlace t.block (t.space == 2) off size).map fun x => s.padFarAt x size) == some true
          let s := if t.space == 0 then (((s.sentPacket t.core a).touchRun a size t.part false).dropL1 t.core t.cap.colour a size).carry t.part a size
            else if far then s.clearL1 t.core else s
          let s := s.count t.core t.part 0x13 size
          ok ({ s with blocks := modify s.blocks t.block fun b => b.land t bs }.tileNext id t)

/-! ### Drains -/

/-- The 32 bytes a sector writes (R271). -/
def Drain.sector (d : Drain) (i : Nat) (old : List Byte) : List Byte :=
  (List.range 8).flatMap fun k =>
    let x := d.data.getD (8 * i + k) 0
    let y : Word := BitVec.ofNat 32 (leNat ((old.drop (4 * k)).take 4))
    leBytes 4 (if d.add then f32op f32.add 0 y x else x).toNat

/-- A drain is done with a sector: it ends after the last, unless a trap has yet to be taken (R273). -/
def State.drainNext (s : State) (id : Nat) (d : Drain) : State :=
  let d := { d with next := d.next + 1 }
  if d.next < d.sectors || (d.fault.isSome && d.barrier.isNone) then { s with drains := set s.drains id d }
  else { s with drains := del s.drains id }

/-- A sector of a drain is rejected: the first one completes its barrier as an error phase, or stays to be trapped (R273). -/
def State.drainFail (s : State) (id : Nat) (d : Drain) (cause addr : Nat) : State :=
  match d.fault with
  | some _ => s.drainNext id d
  | none =>
    let s := match d.barrier with
      | some r => s.barFail r (BitVec.ofNat 16 (0x0400 + cause))
      | none => s
    s.drainNext id { d with fault := some (cause, addr) }

/-- A sector of a drain is written and, before any rejection, counted (R273, R392). -/
def State.drainDone (s : State) (id : Nat) (d : Drain) : State :=
  let s := s.count d.core d.part 0x0D 1
  let s := match d.fault, d.barrier with
    | none, some r => s.barDeliver r 1
    | _, _ => s
  s.drainNext id d

/-- DRAIN_DELIVERY (R273, R274). A drain of a faulted bank writes nothing. -/
def execDrainDelivery (id : Nat) (s : State) : Out :=
  match look s.drains id with
  | none => ok s
  | some d =>
    if d.sectors ≤ d.next || (s.core d.core).occ != some d.part || s.drainWaits id d then ok s
    else match if d.next == 0 then d.fault else none with
      | some (cause, _) => (match d.barrier with
        | some r => ok ({ s with drains := del s.drains id }.barFail r (BitVec.ofNat 16 (0x0400 + cause)))
        | none => ok { s with drains := set s.drains id { d with next := d.sectors } })
      | none =>
        let off := d.offsetOf d.next
        if d.space == 0 then
          let a := d.cap.at off
          if s.outranked d.core a || s.drainBehind id d a then ok s
          else match s.reach d.core d.part d.cap.colour d.cap.gen true a 32 with
          | .wait s => ok s
          | .fail cause addr => ok (s.drainFail id d cause addr)
          | .ok =>
            if d.add && s.poisoned a 32 then ok (s.drainFail id d 20 a)
            else
              let bs := d.sector d.next (s.bytesAt (s.pasid d.part) a 32)
              let s := ((s.sentPacket d.core a).writeBytes (s.pasid d.part) a bs).updateL1 d.core d.cap.colour a bs
              ok (((s.touchRun a 32 d.part true).carry d.part a 32).drainDone id d)
        else match s.padPlace d.block (d.space == 2) off 32 with
          | none => ok (s.drainFail id d 2 off)
          | some (k, o) => match s.block k with
            | none => ok (s.drainFail id d 2 off)
            | some b =>
              if s.padUnread d.gang d.mask id k o 32 || (d.wall != 0 && s.openBefore d.gang d.mask (min d.wall id)) then ok s
              else if d.add && b.padPoisoned o 32 then ok (s.drainFail id d 20 off)
              else ok ((s.setBlock k (b.padWrite o (d.sector d.next (b.padBytes o 32)))).drainDone id d)

end Sys2Proof.Machine
end

