-- ==== Sys2Proof/Machine/HostEvents.lean ====
section
/-! DEFINITION. The host on its link (10, R202 to R204; 15, R319; 21, R403, R404, R408): snoops, translations, page requests, its accesses to
device memory and to the registers of BAR0; and the fabric ports (R412, R413). -/

namespace Sys2Proof.Machine

/-! ### Snoops (R202, R224) -/

/-- HOST_SNOOP (R202): the host takes a line of its window, and writes it. -/
def execHostSnoop (pasid line : Nat) (data : List HostCell) (s : State) : Out :=
  let mine := fun (x : CacheLine) => x.line == pasid * 2 ^ 41 + line && isHost (x.line * 128)
  let drop := fun (ls : List CacheLine) => ls.filter fun x => !mine x
  let left : Store (List CacheLine) := s.slices.map fun (k, ls) => (k, drop ls)
  let s' : State := { s with slices := left.filter fun (_, ls) => !ls.isEmpty }
  let cells := data.filter fun (a, _) => isHost a && decide (a < 2 ^ 48) && a / 128 == line
  let s' := { s' with hostMem := cells.foldl (fun m (a, b) => put 0 m (pasid * 2 ^ 48 + a) b) s'.hostMem }
  ok (evalWaits s' s'.pasid (line * 128) 128)

/-! ### Translations (R203, R204) -/

/-- Partitions in use. -/
def State.active (s : State) : Nat := (s.parts.filter fun (_, p) => p.inUse).length

/-- The page-request entry that a partition's request takes: one of its 4 reserved ones, one of the pool, or none yet. -/
def State.pageEntry (s : State) (part : Nat) : Nat :=
  if (s.pageReqs.filter fun x => x.part == part && x.entry == 1).length < 4 then 1
  else if (s.pageReqs.filter fun x => x.entry == 2).length < 1024 - 4 * s.active then 2
  else 0

/-- Waiting requests take entries that are free, in arrival order. -/
def State.promote (s : State) : State :=
  s.pageReqs.foldl (fun s x =>
    if x.entry != 0 || s.pageEntry x.part == 0 then s
    else { s with pageReqs := s.pageReqs.map fun y => if y == x then ({ x with entry := s.pageEntry x.part } : PageReq) else y }) s

/-- A page request of a partition for a die; its requests for one page share one entry, and take one behind those that wait (R204). -/
def State.requestPage (s : State) (part page die : Nat) : State :=
  let mine := fun (x : PageReq) => x.part == part && x.page == page
  if s.pageReqs.any mine then { s with pageReqs := s.pageReqs.map fun x => if mine x then ({ x with dies := die :: x.dies } : PageReq) else x }
  else
    let x : PageReq := { part := part, page := page, entry := 0, dies := [die] }
    State.promote { s with pageReqs := s.pageReqs ++ [x] }

/-- Whether a step of the device waits for a host page of a partition: it asks for it once no request stands. -/
def State.asks (s : State) (part page : Nat) (f : State → Out) : Bool :=
  match f { s with atsOut := [], pageReqs := [] } with
  | .next t => t.atsOut.any fun x => x.part == part && x.page == page
  | _ => false

/-- The lowest address of a run of n bytes at a that lies in a page. -/
def inPage (page a n : Nat) : Option Nat := if (pagesOf a n).contains page then some (max a (page * 4096)) else none

/-- The address at which a weights stream waits for a page: its first unit there. -/
def MatrixOp.waitsAt (o : MatrixOp) (page : Nat) : Nat :=
  match o.weights with
  | some (cap, off, pitch, n) =>
    (((imageRegions o.cfgA n off pitch).flatMap fun x => unitAddrs (cap.at x.1) x.2).find? fun a => a / 4096 == page).getD (page * 4096)
  | none => page * 4096

/-- A host page fails for a partition on some dies: every lane that waits on it raises the cause with the host-window address, and an engine
command, a tile load, a drain or a weights stream that waits on it fails (R204, R217, R317, R367). An OPEN that is overwriting what it wrote stops
there with that failure (log 108). -/
def State.failPage (s : State) (part page cause : Nat) (onDie : Nat → Bool) : State :=
  let hit := fun (core : Nat) => onDie (dieOf core)
  let s := s.reqs.foldl (fun s (id, r) =>
    if r.stage == .page && r.part == part && hit r.core && (pagesOf r.addr r.size).contains page then s.reject id r cause r.addr else s) s
  let s := s.engines.foldl (fun s (id, e) =>
    if e.part == part && hit e.core && s.asks part page (execEngineSectorDelivery id) then s.failEngine id (0x0400 + cause) else s) s
  let s := s.tileOps.foldl (fun s (id, t) =>
    if t.part == part && hit t.core && s.asks part page (execTileFill id) then
      s.tileNext id { t with fault := t.fault.or (some (cause, ((t.left.head?.bind fun x => inPage page x.1 x.2).getD (page * 4096)))) } else s) s
  let s := s.drains.foldl (fun s (id, d) =>
    if d.part == part && hit d.core && s.asks part page (execDrainDelivery id) then
      s.drainFail id d cause ((d.left.head?.bind fun x => inPage page x.1 x.2).getD (page * 4096)) else s) s
  let s := s.matrix.foldl (fun s o =>
    if o.part == part && hit o.core && !o.started && s.asks part page (execMatrixStart o.core) then
      { s with matrix := s.matrix.map fun (x : MatrixOp) => if x.id == o.id then { x with fault := some (cause, x.waitsAt page) } else x }
    else s) s
  let near := fun (w : Nat) => ((s.gang w).map fun g => hit (s.coreOf g)).getD true
  { s with pageWaits := s.pageWaits.map fun (w, p, q, c) => if p == part && q == page && c == 0 && near w then (w, p, q, cause) else (w, p, q, c) }

/-- Whether an access is a prefetch that waits for a die's translation of a page. -/
def Req.fetchesAhead (r : Req) (die part page : Nat) : Bool :=
  r.acc == .prefetch && r.stage == .page && r.part == part && dieOf r.core == die && r.addr / 4096 == page

/-- ATS_COMPLETION (R203): the answer to an outstanding request; a cache of 4,096 translations drops its oldest (log 43). A page that is not present
is requested, but not for prefetches (R204, R223). -/
def execAtsCompletion (die pasid page size : Nat) (res : AtsResult) (s : State) : Out :=
  match s.atsOut.find? fun x => x.isFor die pasid page with
  | none => ok s
  | some x =>
    let s : State := { s with atsOut := s.atsOut.filter fun x => !x.isFor die pasid page }
    let enter := fun (ro : Bool) =>
      let size := max size 4096
      let mine := s.xlate.filter fun x => x.1 == die
      let kept := if mine.length < 4096 then s.xlate else match mine.head? with
        | some x => s.xlate.erase x
        | none => s.xlate
      ok { s with xlate := kept ++ [(die, pasid, page * 4096 / size * size, size, ro)] }
    match res with
    | .translated => enter false
    | .readOnly => enter true
    | .notPresent =>
      let s : State := { s with reqs := s.reqs.filter fun (_, r) => !r.fetchesAhead die x.part page }
      ok (if x.quiet then s else s.requestPage x.part page die)
    | .error => ok (s.failPage x.part page 21 fun d => d == die)

/-- ATS_INVALIDATION (R203): the matching translations go on every die. Each access is translated and performed in one step, so none is
on its way. -/
def execAtsInvalidation (pasid page size : Nat) (s : State) : Out :=
  let a := page * 4096
  let n := max size 4096
  ok { s with xlate := s.xlate.filter fun (_, p, b, m, _) => !(p == pasid && decide (b < a + n) && decide (a < b + m)) }

/-- PAGE_REQUEST_RESPONSE (R204): the entries are free; the waiting accesses are translated again, or fail. -/
def execPageRequestResponse (pasid page : Nat) (good : Bool) (s : State) : Out :=
  let mine := s.pageReqs.filter fun x => x.page == page && x.entry != 0 && s.pasid x.part == pasid
  let s : State := { s with pageReqs := s.pageReqs.filter fun x => !mine.contains x }
  let s := if good then s else mine.foldl (fun s x => s.failPage x.part page 17 x.dies.contains) s
  ok s.promote

/-! ### The audit queue (R408) -/

/-- Logs an access of the host that reads 0 or is dropped. kind: 0 register read, 1 register write, 2 memory read, 3 memory write; the entry's
layout is the model's (log 44). -/
def State.log (s : State) (kind at_ : Nat) : State :=
  let xs := s.audit ++ [(kind, at_)]
  { s with audit := xs.drop (xs.length - 1024), auditCount := s.auditCount + 1 }

/-! ### CXL.mem (R319, R403, R408) -/

def State.channel (s : State) (n : Nat) : Channel := lookD Channel.closed s.channels n
def State.setChannel (s : State) (n : Nat) (c : Channel) : State := { s with channels := put Channel.closed s.channels n c }

/-- A transfer of a channel is aborted while its counts differ: it is in desync (R319). -/
def Channel.abort (c : Channel) : Channel := if c.state == 1 && c.host != c.device then { c with state := 2 } else c

/-- Aborts the transfers of every channel. -/
def State.abortChannels (s : State) : State := { s with channels := s.channels.map fun (n, (c : Channel)) => (n, c.abort) }

/-- The bytes of device memory at an address, without tags; those of a poisoned word are free (R213, R403; log 113). -/
def State.hostBytes (s : State) (a n : Nat) : List Byte :=
  if s.poisoned a n then leBytes n (Config.freeValue (w := 8 * n) s.fresh).toNat else s.bytesAt 0 a n

/-- Answers a read of the host. -/
def State.answer (s : State) (bs : List Byte) : State := { s with fresh := s.fresh + 1, hostAnswer := bs }

/-- A host access of n bytes through the window of an open channel: a read, or a write, which counts HOST COUNT first, then the bytes, then DEVICE
COUNT (R319). -/
def State.channelAccess (s : State) (n : Nat) (c : Channel) (o size : Nat) (data : Option (List Byte)) (abort : Bool) : State :=
  let a := c.first * 0x200000 + o
  match data with
  | none => ((s.answer (s.hostBytes a size)).touchRun a size c.part false).use 7 c.part size
  | some bs =>
    let count := BitVec.ofNat 64 bs.length
    let begun := { c with host := c.host + count }
    if abort then s.setChannel n begun.abort
    else ((s.devWrite c.part a bs).use 7 c.part bs.length).setChannel n { begun with device := c.device + count }

/-- HOST_CXL_MEM_ACCESS (R403, R408): a read (no data), or a write, which the host may abandon or poison (abort). A read that does not reach a
channel in confidential mode answers zeros. What lies past the HDM range is not the device's. -/
def execHostCxlMemAccess (off size : Nat) (data : Option (List Byte)) (abort : Bool) (s : State) : Out :=
  let n := match data with | some bs => bs.length | none => size
  if !s.confidential then
    if !decide (off + n ≤ 0x6000000000) then ok s
    else match data with
      | none => ok ((s.answer (s.hostBytes off n)).touchHeld off n false)
      | some bs => ok (if abort then s else (s.writeBytes 0 off bs).touchHeld off n true)
  else
    let k := off / 2 ^ 36
    let c := s.channel k
    if k < 16 && decide (off % 2 ^ 36 + n ≤ c.count * 0x200000) && c.state == 1 then ok (s.channelAccess k c (off % 2 ^ 36) n data abort)
    else ok (match data with
      | some _ => s.log 3 off
      | none => (s.log 2 off).answer (List.replicate n 0))

/-! ### Registers (R404, R406, R408) -/

/-- The mailbox and event registers. -/
def hostRegister (off : Nat) : Bool := off < 0x20 || (0x40 ≤ off && off < 0x54) || (0x1000 ≤ off && off < 0x5000)

/-- Whether the allow-list lets the host read a register (R380). -/
def State.readable (s : State) (off : Nat) : Bool :=
  (List.range 128).any fun i => let x := lookD 0 s.allowList i; x.getLsbD 31 && (x.extractLsb' 2 22).toNat == off / 4

/-- Which command codes are assigned (R405). -/
def mailboxCode (cmd : Word) : Bool := 1 ≤ cmd.toNat && cmd.toNat ≤ 0xC

/-- Ends a mailbox command: MBRESULT and MBDATA, then STATUS, then BUSY. MBRESULT of a command that the spec gives no result is free (log 45). -/
def State.finish (s : State) (status : Nat) (data : List Byte) : State :=
  { s with
    fresh := s.fresh + 1
    mailbox := { s.mailbox with
      result := Config.freeValue s.fresh, data := data.zipIdx.foldl (fun m (b, i) => put 0 m i b) s.mailbox.data,
      status := BitVec.ofNat 16 status, busy := false, run := none } }

/-- The doorbell: BUSY, and a snapshot of the command. A command that is not assigned ends at once. -/
def State.doorbell (s : State) : State :=
  let m := s.mailbox
  if m.busy then s
  else if !mailboxCode m.cmd then s.finish 2 []
  else { s with mailbox := { m with busy := true, run := some (m.cmd, m.args, readFrom m.data 0 16384) } }

/-- HOST_REGISTER_WRITE (R404): a write of 32 bits. In confidential mode a write outside the mailbox and event registers is dropped and
logged (R408). -/
def execHostRegisterWrite (off : Nat) (val : Word) (s : State) : Out :=
  let m := s.mailbox
  if !hostRegister off then ok (if s.confidential then s.log 1 off else s)
  else if off == 0x1C then ok (if val == 1 then s.doorbell else s)
  else if off == 0x40 then ok { s with events := { s.events with baseLo := val } }
  else if off == 0x4C then ok { s with events := flushEvents 257 { s.events with tail := val.toNat % 4096 } }
  else if off == 0x44 then ok { s with events := { s.events with baseHi := val } }
  else if m.busy then ok s
  else if off == 0 then ok { s with mailbox := { m with cmd := val } }
  else if 8 ≤ off && off < 0x18 then ok { s with mailbox := { m with args := m.args.set ((off - 8) / 4) val } }
  else if 0x1000 ≤ off then
    ok { s with mailbox := { m with data := writeTo m.data (off - 0x1000) (leBytes (min 4 (0x5000 - off)) val.toNat) } }
  else ok s

/-- Whether an offset lies among the health registers (R404). -/
def healthRegister (off : Nat) : Bool := 0x100 ≤ off && off < 0x200

/-- What the register at an offset reads (R404). An offset that names none reads a free value (log 113). -/
def State.register (s : State) (off : Nat) : Word :=
  let m := s.mailbox
  let e := s.events
  if off == 0 then m.cmd
  else if off == 4 then (if m.busy then 0x80000000 else 0) ||| m.status.setWidth 32
  else if 8 ≤ off && off < 0x18 then m.args.getD ((off - 8) / 4) 0
  else if off == 0x18 then m.result
  else if off == 0x1C then 0
  else if off == 0x40 then e.baseLo
  else if off == 0x44 then e.baseHi
  else if off == 0x48 then BitVec.ofNat 32 e.head
  else if off == 0x4C then BitVec.ofNat 32 e.tail
  else if off == 0x50 then e.lost
  else if healthRegister off then Config.healthWord (off - 0x100) s.health.1 s.health.2 s.clkStep.toNat s.soft
  else if 0x1000 ≤ off && off < 0x5000 then BitVec.ofNat 32 (leNat (readFrom m.data (off - 0x1000) 4))
  else Config.freeValue s.fresh

/-- HOST_REGISTER_READ (R404, R408): a read of 32 bits. In confidential mode one outside the mailbox and event registers and the allow-list
answers 0 and is logged. That a read of MBSTAT with BUSY clear is an acquire orders the host's own accesses. -/
def execHostRegisterRead (off : Nat) (s : State) : Out :=
  ok (if s.confidential && !hostRegister off && !s.readable off then (s.log 0 off).answer (leBytes 4 0)
    else s.answer (leBytes 4 (s.register off).toNat))

/-- A read over I3C: the security controller serves the health registers and nothing else (R415). -/
def State.i3c (s : State) (off : Nat) : State := if healthRegister off then s.answer (leBytes 4 (s.register off).toNat) else s

/-- EVTAIL_WRITE (R406): entries held on chip go to the ring as it has room. -/
def execEvtailWrite (val : Word) (s : State) : Out :=
  ok { s with events := flushEvents 257 { s.events with tail := val.toNat % 4096 } }

/-! ### The link (R319, R367, R415) -/

/-- The host link goes down: requests to the host are lost, and transfers are aborted (log 46). -/
def State.linkLost (s : State) : State := { s with linkUp := false, atsOut := [], pageReqs := [] }.abortChannels

/-- HOST_LINK_LOSS (R367): the link goes down, or is up again. -/
def execHostLinkLoss (down : Bool) (s : State) : Out := ok (if down then s.linkLost else { s with linkUp := true })

/-- PERST (R415): the fundamental reset of the host link. The link is down until it is up again. -/
def execPerst (s : State) : Out := ok s.linkLost

/-! ### Fabric ports (R412, R413) -/

/-- The secret that two devices agree a port key by: the lower device encapsulates to the other's key, and the higher one opens the ciphertext
that it is sent (R412, R414). -/
def State.agree (s : State) (rep : PeerReport) : State × Option (List Byte × BitVec 256) :=
  if bytesLt (bytes64 Config.identity) (bytes64 rep.identity) then ({ s with fresh := s.fresh + 1 }, some (Config.kemSend rep.kemKey s.fresh))
  else (s, (Config.kemOpen rep.ciphertext).map fun x => ([], x))

/-- LINK_UP (R412): the reports are exchanged, this device's with a signature of its own, and the port key agreed. A port stays down whose peer's
report, or whose key agreement, fails. -/
def execLinkUp (port : Nat) (rep : PeerReport) (s : State) : Out :=
  if 12 ≤ port || ((look s.ports port).map (·.up)).getD false then ok s
  else
    let s := { s with energy := { s.energy with seqNo := s.energy.seqNo + 1 } }
    if !rep.verified then ok s
    else match s.agree rep with
      | (s, none) => ok s
      | (s, some (cipher, secret)) =>
        let p : Port :=
          { up := true, ident := rep.identity, meas := rep.measurements.foldl (fun m (k, x) => put 0 m k x) [],
            key := portKey secret rep.identity, asked := [], pairs := [], sent := [], cipher := cipher }
        ok { s with ports := set s.ports port p }

/-- LINK_LOSS (R412): the port's commands fail (R311), the messages on it are lost (R345), and its pairs end (R413). -/
def execLinkLoss (port : Nat) (s : State) : Out :=
  match look s.ports port with
  | none => ok s
  | some p =>
    let s := { s with ports := set s.ports port { p.unpair fun _ => true with up := false, asked := [] } }
    ok (s.engines.foldl (fun s (id, e) => match e.stage with
      | .failing _ => s
      | _ => if 0x20 ≤ e.kind && e.route == 1 && e.peer == port then s.failEngine id 0x0502 else s) s)

/-- Whether a partition's context is running or halted. -/
def State.alive (s : State) (part : Nat) : Bool := let x := (s.context part).state; x == 1 || x == 2

/-- PEER_PAIR (R413): the peer has asked for the same pair; it exists if each side's measurement verifies in the other's report. One that does
not, because the peer's context has ended or has another measurement, ends a pair that stands. -/
def execPeerPair (port local_ peer : Nat) (good : Bool) (s : State) : Out :=
  match look s.ports port with
  | none => ok s
  | some p =>
    if !good then ok { s with ports := set s.ports port (p.unpair fun x => x.1 == local_ && x.2.1 == peer) }
    else if !p.up || !p.asked.contains (local_, peer) || !s.alive local_ then ok s
    else
      let key := pairKey p.key p.ident (s.context local_).measurement (lookD 0 p.meas peer) local_ peer
      ok { s with ports := set s.ports port { p with
        asked := p.asked.erase (local_, peer), pairs := (p.pairs.filter fun x => x.1 != local_) ++ [(local_, peer, key)] } }

end Sys2Proof.Machine
end

