-- ==== Sys2Proof/Machine/Lanes.lean ====
section
/-! DEFINITION. Predicate operations and cross-lane operations (08), and moves between v and s registers (06, R127). -/

namespace Sys2Proof.Machine

/-! ### Shared forms -/

/-- A predicate operation in every active lane (R149). -/
def kop (f : Bool → Bool → Bool) (kb ka kd : KReg) (s : State) : Out :=
  issue s { srcs := [.k ka.toNat, .k kb.toNat] } fun c => c.writeK kd.toNat fun l => f (c.g.kAt ka.toNat l) (c.g.kAt kb.toNat l)

/-- A lane move (R151): from gives the number of the lane read from; a number outside the group gives the lane itself (R38). -/
def laneMove (from_ : Nat → Nat → Word → Int) (pb pa : Bool) (b a d : Reg) (s : State) : Out :=
  let src := fun (c : Ctx) (l : Nat) => c.fromLane l (from_ c.groupSize (c.id l) (c.v b.toNat .none l))
  issue s { coll := true, srcs := [.v b.toNat 1 pb .none, .cross a.toNat pa src], dsts := [.v d.toNat 1] }
    fun c => c.writeV d.toNat fun l => c.g.vAt (c.vk a.toNat) (src c l)

/-- The lanes of a lane's group among those of a mask, numbered within the group. -/
def Ctx.groupOf (c : Ctx) (m : Mask) (lane : Nat) : List Nat :=
  ((lanesOf m).filter fun l => c.groupBase l == c.groupBase lane).map c.id

/-- A predicate count (R152): f takes the set P of the lane's group and the lane's number. -/
def kcountOp (f : List Nat → Nat → Word) (a : KReg) (d : Reg) (s : State) : Out :=
  issue s { coll := true, srcs := [.k a.toNat], dsts := [.v d.toNat 1] } fun c =>
    let p := c.live &&& maskOf fun l => c.g.kAt a.toNat l
    c.writeV d.toNat fun l => f (c.groupOf p l) (c.id l)

/-- A fold over the active lanes of each group (R154). In compatibility mode half 1 goes to S[d+1], and a half without lanes leaves its
register as it is. A lane that traps on an empty source is not among the lanes folded, nor among those LKIN compares: R154 does not say
(log 99). -/
def lfold (f : Word → Word → Word) (pa : Bool) (a d : Reg) (s : State) : Out :=
  issue s { coll := true, srcs := [.v a.toNat 1 pa .none], also := fun c => !c.blk.hdr.compat || even d } fun c =>
    let parts : List (Nat × Mask) :=
      if c.blk.hdr.compat then [(0, c.live &&& 0xFFFF), (1, c.live &&& 0xFFFF0000)] else [(0, c.live)]
    let parts := parts.filter fun x => x.2 != 0
    if parts.any fun x => !c.g.sFull (c.sk (d.toNat + x.1)) then .stall
    else c.gangDone fun g => parts.foldl (fun g x =>
      match (lanesOf x.2).map fun l => c.v a.toNat .none l with
      | [] => g
      | y :: ys => g.setS (c.sk (d.toNat + x.1)) (ys.foldl f y)) g

/-! ### Meanings -/

/-- KAND (R149). -/
def execKand (kb ka kd : KReg) (s : State) : Out := kop (fun x y => x && y) kb ka kd s

/-- KOR (R149). -/
def execKor (kb ka kd : KReg) (s : State) : Out := kop (fun x y => x || y) kb ka kd s

/-- KXOR (R149). -/
def execKxor (kb ka kd : KReg) (s : State) : Out := kop (fun x y => x != y) kb ka kd s

/-- KANDN (R149). -/
def execKandn (kb ka kd : KReg) (s : State) : Out := kop (fun x y => x && !y) kb ka kd s

/-- KNOT (R149). -/
def execKnot (ka kd : KReg) (s : State) : Out := kop (fun x _ => !x) 0 ka kd s

/-- LSEL (R151). -/
def execLsel (pb pa : Bool) (b a d : Reg) (s : State) : Out := laneMove (fun _ _ x => x.toNat) pb pa b a d s

/-- LSTEP (R151). -/
def execLstep (pb pa : Bool) (b a d : Reg) (s : State) : Out := laneMove (fun _ id x => id + x.toInt) pb pa b a d s

/-- LSTEP_W (R151). -/
def execLstepW (pb pa : Bool) (b a d : Reg) (s : State) : Out := laneMove (fun g id x => (id + x.toInt) % (g : Int)) pb pa b a d s

/-- LMIRROR (R151). -/
def execLmirror (pb pa : Bool) (b a d : Reg) (s : State) : Out := laneMove (fun _ id x => ((id ^^^ x.toNat : Nat) : Int)) pb pa b a d s

/-- KMASK (R152). -/
def execKmask (a : KReg) (d : Reg) (s : State) : Out := kcountOp (fun p _ => p.foldl (fun m l => m ||| bit l) 0) a d s

/-- KCOUNT (R152). -/
def execKcount (a : KReg) (d : Reg) (s : State) : Out := kcountOp (fun p _ => BitVec.ofNat 32 p.length) a d s

/-- KRANK (R152). -/
def execKrank (a : KReg) (d : Reg) (s : State) : Out :=
  kcountOp (fun p id => BitVec.ofNat 32 (p.filter fun l => decide (l < id)).length) a d s

/-- LKIN (R153): the lowest lane and the number of the lane's kin, among the lanes that execute it (log 99). -/
def execLkin (pa : Bool) (a d : Reg) (s : State) : Out :=
  issue s { coll := true, srcs := [.v a.toNat 1 pa .none], dsts := [.v d.toNat 1] } fun c =>
    c.writeV d.toNat fun l =>
      let kin := c.groupOf (c.live &&& maskOf fun x => c.v a.toNat .none x == c.v a.toNat .none l) l
      BitVec.ofNat 32 (kin.length * 32 + kin.headD 0)

/-- LFOLD_ADD (R154). -/
def execLfoldAdd (pa : Bool) (a d : Reg) (s : State) : Out := lfold (· + ·) pa a d s

/-- LFOLD_MIN_I32 (R154). -/
def execLfoldMinI32 (pa : Bool) (a d : Reg) (s : State) : Out := lfold iMinS pa a d s

/-- LFOLD_MAX_I32 (R154). -/
def execLfoldMaxI32 (pa : Bool) (a d : Reg) (s : State) : Out := lfold iMaxS pa a d s

/-- LFOLD_AND (R154). -/
def execLfoldAnd (pa : Bool) (a d : Reg) (s : State) : Out := lfold (· &&& ·) pa a d s

/-- LFOLD_OR (R154). -/
def execLfoldOr (pa : Bool) (a d : Reg) (s : State) : Out := lfold (· ||| ·) pa a d s

/-- LFOLD_XOR (R154). -/
def execLfoldXor (pa : Bool) (a d : Reg) (s : State) : Out := lfold (· ^^^ ·) pa a d s

/-- LFOLD_MIN_N32 (R154). -/
def execLfoldMinN32 (pa : Bool) (a d : Reg) (s : State) : Out := lfold iMinN pa a d s

/-- LFOLD_MAX_N32 (R154). -/
def execLfoldMaxN32 (pa : Bool) (a d : Reg) (s : State) : Out := lfold iMaxN pa a d s

/-- MOV_VS (R127). -/
def execMovVs (a b : Reg) (s : State) : Out :=
  issue s { srcs := [.s a.toNat 1 false], dsts := [.v b.toNat 1] } fun c => c.writeV b.toNat fun _ => c.sv a.toNat

/-- MOV_SV (R127): from the lowest active lane. -/
def execMovSv (a b : Reg) (s : State) : Out :=
  issue s { srcs := [.cross a.toNat false fun c _ => lowest c.active], dsts := [.s b.toNat 1] }
    fun c => c.writeS b.toNat (c.v a.toNat .none (lowest c.active))

/-- RDLANE (R127): from lane n, active or not. -/
def execRdlane (n : BitVec 5) (a b : Reg) (s : State) : Out :=
  issue s { srcs := [.cross a.toNat false fun _ _ => n.toNat], dsts := [.s b.toNat 1] }
    fun c => c.writeS b.toNat (c.v a.toNat .none n.toNat)

end Sys2Proof.Machine
end

