-- ==== Sys2Proof/Machine/Preempt.lean ====
section
/-! DEFINITION. Eviction, slice ends and the turns of partitions on a core (02, 18, R45 to R50, R369 to R374). -/

namespace Sys2Proof.Machine

/-! ### What leaves and what comes back -/

/-- Settles the loads of some requests. Values that have arrived fill their registers. Every load still on its way becomes a packet, to be
issued anew; what was issued goes on for a gang 0, and its return will be discarded (R47, R48). A rejection of a load that no trap has taken
yet is discarded with it (R374); a request that waits for its host page stands where it is. -/
def State.settleLoads (s : State) (mine : Req → Bool) : State :=
  let back := s.reqs.filter fun (_, r) => mine r && (match r.stage, r.acc with
    | .replied _ _, .wait _ _ => false
    | .replied _ _, _ => true
    | _, _ => false)
  let s := back.foldl (fun s (id, r) => match r.stage with
    | .replied words tag => { s with reqs := del s.reqs id }.deliver r words tag
    | _ => s) s
  let out := s.reqs.filter fun (_, r) => mine r && r.acc.isLoad && r.stage == .sent
  let anew := fun (r : Req) => mine r && r.acc.packet && (match r.stage with | .rejected _ _ => true | _ => false)
  let s := { s with reqs := s.reqs.map fun (id, r) => if anew r then (id, { r with stage := .sent }) else (id, r) }
  out.foldl (fun s (_, r) => s.send { r with gang := 0 }) s

/-- The accesses of a gang that comes back are issued with its seat's generation; lanes of a WAITMEM that had not latched read
afresh, and a packet asks for its host page again (R48, R49, R224). -/
def State.reissue (s : State) (gid seat : Nat) (gen : BitVec 4) : State :=
  { s with reqs := s.reqs.map fun (id, r) =>
      if r.gang == gid then
        (id, { r with gen := gen, seat := seat, stage := if (r.stage == .waiting && r.acc.reads) || (r.acc.packet && r.stage == .page) then .sent else r.stage })
      else (id, r) }

/-- The context generation of a seat moves on (R48). -/
def State.bumpGen (s : State) (core seat : Nat) : State :=
  let k := s.core core
  s.setCore core { k with ctxgen := put 0 k.ctxgen seat (lookD 0 k.ctxgen seat + 1) }

/-- Whether a seat may take its next generation: no return that carries it is outstanding (R48). What a gang that is out of its seat has kept is not
under way, and takes a generation when it is issued anew. -/
def State.genFree (s : State) (core seat : Nat) : Bool :=
  s.reqs.all fun (_, r) => r.core != core || r.seat != seat || r.gen != lookD 0 (s.core core).ctxgen seat + 1 || !(r.gang == 0 || s.seatedNow r.gang)

/-! ### Sealed records (R370) -/

/-- Where the record of a core of the core set lies in the save area, in ascending core number (R358). -/
def coreRecPlace (s : State) (key : Nat) : Nat × Nat :=
  match s.part (key / 512) with
  | some p =>
    let rank := ((List.range (key % 512)).filter p.coreSet.getLsbD).length
    (p.area + 0x2000000 + rank * 0x200000, 0x200000)
  | none => (0, 0)
/-- Where an eviction record lies: key partition * 1024 + record (R358). -/
def evictRecPlace (s : State) (key : Nat) : Nat × Nat :=
  match s.part (key / 1024) with
  | some p => (p.area + 0x1000000 + (key % 1024) * 0x4000, 0x4000)
  | none => (0, 0)


/-- The next sealing of a partition's records: HALT SEQUENCE increments (R370). -/
def State.nextSeq (s : State) (part : Nat) : State × Nat :=
  let c := s.context part
  (s.setContext part { c with haltSeq := c.haltSeq + 1 }, (c.haltSeq + 1).toNat)

/-- The bytes of a sealed record: the sequence value, and what the cipher makes of the rest under the context key (R370; log 10). -/
def State.sealedBytes (s : State) (part size seq n : Nat) : List Byte :=
  leBytes 8 seq ++ leBytes (size - 8) (Config.sealedRecord (s.keyOf part) seq n : BitVec (8 * (size - 8))).toNat

/-- Seals a record into its place, for its partition (R200, R396). It answers what the device keeps of it. -/
def State.sealAt (s : State) (part : Nat) (place : Nat × Nat) : State × (Nat × Nat) :=
  let (s, seq) := s.nextSeq part
  ({ s with fresh := s.fresh + 1 }.devWrite part place.1 (s.sealedBytes part place.2 seq s.fresh), (seq, s.fresh))

/-- Why a record does not restore: its stored sequence value is not the one kept, 84, or its tag does not verify, 85 (R370). -/
def State.sealCause (s : State) (part : Nat) (place : Nat × Nat) (kept : Nat × Nat) : Option Nat :=
  let bs := s.bytesAt 0 place.1 place.2
  if leNat (bs.take 8) != kept.1 then some 84
  else if bs != s.sealedBytes part place.2 kept.1 kept.2 then some 85 else none

/-! ### Eviction (R45, R46, R373) -/

/-- Whether every split of a gang is parked (R41). -/
def Gang.parked (g : Gang) : Bool := !g.splits.isEmpty && g.splits.all fun (_, sp) => g.stopped || sp.isParked

/-- Whether an access of a gang keeps it in its seat: only loads leave as packets, and one to the host window first waits for its page
(R45, R229). -/
def Req.holds (r : Req) : Bool :=
  match r.acc with
  | .wait _ _ => false
  | _ => r.inFlight && (!r.acc.packet || (isHost r.addr && r.acc != .prefetch && r.stage == .sent))

/-- Whether a gang can leave its seat: it is parked in an ordinary seat, no access of it holds it there, and the seat can take its next generation
(R41, R45, R48). -/
def State.evictable (s : State) (gid : Nat) (g : Gang) : Bool :=
  g.place == .resident && decide (g.seat < 32) && g.parked && s.genFree (s.coreOf g) g.seat &&
    !(s.flueOps.any fun (_, o) => o.gang == gid && !(match o.kind with | .wait _ _ => true | _ => false)) &&
    !(s.reqs.any fun (_, r) => r.gang == gid && r.holds)

/-- A core as it would be without the gangs of a partition that can leave it and have nothing to do. -/
def State.roomed (s : State) (part core : Nat) : State :=
  { s with gangs := s.gangs.map fun (k, g) =>
      (k, if s.partOf g == part && s.coreOf g == core && s.evictable k g && !s.gangWakes k g then { g with place := .evicted } else g) }

/-- Whether the next block or cluster group of the launch that a partition's dispatcher serves is ready to be placed on a core: nowhere as it is, but
there if gangs left that core (R45, R324; log 100). -/
def State.blockWants (s : State) (part core : Nat) : Bool :=
  match s.part part with
  | none => false
  | some p => match p.serving.bind fun id => (look s.launches id).map fun x => (id, x) with
    | none => false
    | some (id, x) => (s.placeNext part p id x).isNone && (match (s.roomed part core).placeNext part p id x with
      | some t => decide (((s.roomed part core).blocksOn part core).length < (t.blocksOn part core).length)
      | none => false)

/-- Whether another gang of a partition is ready to be placed on a core: one evicted from it whose condition holds, or of the block to be
placed next (R45). -/
def State.seatWanted (s : State) (part core : Nat) : Bool := s.returning part core || s.blockWants part core

/-- Whether the device may reach a record of a partition's context area (R442). -/
def State.recordOk (s : State) (part : Nat) (place : Nat × Nat) : Bool :=
  match s.part part with
  | some p => s.ownArea p place.1 place.2
  | none => false

/-- EVICTION (R45). Of the free records it takes the lowest (log 34). The record carries the seat record, in which the gang's frames and
spilled entries stand (log 35). -/
def execEviction (gid : Nat) (s : State) : Out :=
  match s.gang gid with
  | none => ok s
  | some g => match s.block g.block with
    | none => ok s
    | some b =>
      let used := s.gangs.filterMap fun (_, x) => if s.partOf x == b.part then x.record.map (·.1) else none
      match (List.range 1024).find? fun n => !used.contains n with
      | none => ok s
      | some n =>
        if !s.evictable gid g || !s.runsOn b.part b.core || !s.seatWanted b.part b.core then ok s
        else
          let place := evictRecPlace s (b.part * 1024 + n)
          if !s.recordOk b.part place || !s.seatOk g then ok (s.areaFailed gid)
          else
            let s := s.settleLoads fun r => r.gang == gid
            let s := { s with
              gangs := modify s.gangs gid fun x => { x with place := .evicted, record := some (n, s.bytesAt 0 (s.seatRecord g) 512) } }
            let (s, kept) := (s.touchRun (s.seatRecord g) 512 b.part false).sealAt b.part place
            ok ({ s with evictRecs := set s.evictRecs (b.part * 1024 + n) kept }.bumpGen b.core g.seat)

/-- Puts a gang into a seat. -/
def State.seat (s : State) (gid seat : Nat) : State :=
  { s with gangs := modify s.gangs gid fun g => { g with place := .resident, seat := seat, record := none } }

/-- A reinstatement whose record fails (R370, R373): its block halts for good, with a frame of the cause for this gang. -/
def State.reinstateFail (s : State) (gid seat cause : Nat) : State :=
  match s.gang gid with
  | none => s
  | some g => match s.block g.block with
    | none => s
    | some b =>
      let s := (s.seat gid seat).setBlock g.block { b with halt := some { causes := [], forever := true } }
      ((s.stopGangs g.block).post 6 cause 0 0 0 (seatLoc b.core seat)).haltFrame gid 0 cause

/-- REINSTATEMENT (R46, R373). -/
def execReinstatement (gid : Nat) (s : State) : Out :=
  match s.gang gid with
  | none => ok s
  | some g => match s.block g.block, g.record with
    | some b, some (n, bytes) =>
      let f := s.free b.part b.core
      let key := b.part * 1024 + n
      let seat := s.freeSeat b.part b.core
      let place := evictRecPlace s key
      if g.place != .evicted || !s.runsOn b.part b.core || !s.gangWakes gid g || f.seats == 0 || f.regs < b.hdr.regs then ok s
      else if !s.recordOk b.part place then ok (s.areaFailed gid)
      else match (look s.evictRecs key).bind (s.sealCause b.part place) with
        | some cause => ok ({ s with evictRecs := del s.evictRecs key }.reinstateFail gid seat cause)
        | none =>
          let s := s.touchRun place.1 place.2 b.part false
          let s := ({ s with evictRecs := del s.evictRecs key }.seat gid seat).reissue gid seat (lookD 0 (s.core b.core).ctxgen seat)
          (match s.gang gid with
          | none => ok s
          | some g =>
            if !s.seatOk g then ok (s.areaFailed gid)
            else
              let s := s.devWrite b.part (s.seatRecord g) bytes
              ok (s.setGang gid { g with traps := g.traps.map fun (k, t) => (k, { t with frame := s.frameCap g (if k == 4 then 0 else k) }) }))
    | _, _ => ok s

/-! ### Slice ends and turns (R47, R50, R369, R370) -/

/-- Whether an update of an atomic belongs to a pass of which nothing has been performed, after the first: a halt saves it (R229; log 88). -/
def State.passSaved (s : State) (r : Req) : Bool :=
  r.acc.isAtomic && r.pass != 0 && (lanesOf r.peers).all fun l =>
    s.reqs.any fun (_, q) => q.inst == r.inst && q.gang == r.gang && q.lane == l && q.inFlight

/-- Whether everything that drains at a halt has drained, and every seat may take its next generation (R47, R48, R229, R277, R294, R328). -/
def State.drained (s : State) (core part : Nat) : Bool :=
  !(s.reqs.any fun (_, r) => r.core == core && r.part == part && r.gang != 0 && (match r.acc with
      | .wait _ _ => false
      | .enter _ => true
      | _ => r.inFlight && !r.acc.packet && !s.passSaved r)) &&
    !(s.flueOps.any fun (_, o) => o.core == core && o.part == part && o.fault.isNone && !(match o.kind with | .wait _ _ => true | .peek => true | _ => false)) &&
    !(s.matrix.any fun o => o.core == core && o.part == part) && (s.core core).matrixBusy == 0 &&
    !(s.drains.any fun (_, d) => d.core == core && d.part == part && (d.next < d.sectors || d.barrier.isSome)) &&
    s.gangs.all fun (_, g) => s.coreOf g != core || s.partOf g != part || g.place != .resident || s.genFree core g.seat

/-- A core record that does not restore (R370): the partition halts everywhere, and PRESUME will raise the cause. -/
def State.restoreFail (s : State) (core part cause : Nat) : State :=
  let s := { s with parts := modify s.parts part fun p => { p with halted := true, failed := some cause } }
  let c := s.context part
  (s.setContext part { c with state := if c.state == 1 then 2 else c.state }).post 6 cause 0 0 0 core

/-- A partition's context takes a free core (R369, R370). The damper starts anew with it (R335; log 112). The device keeps what it knows of a record
until the record has been restored. -/
def State.occupy (s : State) (core part : Nat) : State :=
  let key := part * 512 + core
  let place := coreRecPlace s key
  let saved := look s.coreRecs key
  if saved.isSome && !s.recordOk part place then s.coreFailed core part
  else match saved.bind (s.sealCause part place) with
    | some cause => s.restoreFail core part cause
    | none =>
      let s := if saved.isSome then s.touchRun place.1 place.2 part false else s
      let s := { s with coreRecs := del s.coreRecs key }
      let k := s.core core
      let s := s.setCore core { k with occ := some part, lastTurn := part, sliceclk := put 0 k.sliceclk part 0, score := 0, allow := 32, halting := false }
      (s.gangs.filter fun (_, g) => s.coreOf g == core && s.partOf g == part && g.place == .resident).foldl
        (fun s (gid, g) => s.reissue gid g.seat (lookD 0 (s.core core).ctxgen g.seat)) s

/-- A core that a PHALT waits for has sealed its record (R372). -/
def Req.sealedBy (r : Req) (core part : Nat) : Req :=
  match r.acc with
  | .phalt p cores => if p == part then { r with acc := .phalt p (cores.filter (· != core)) } else r
  | _ => r

/-- A partition's context leaves a core: its record is sealed (R47, R48, R370). One that cannot be written halts its blocks on the core and the
partition (R442), and what stands in its place does not restore. -/
def State.vacate (s : State) (core part : Nat) : State :=
  let s := s.settleLoads fun r => r.core == core && r.part == part && r.gang != 0
  let s := (s.gangs.filter fun (_, g) => s.coreOf g == core && s.partOf g == part && g.place == .resident).foldl
    (fun s (_, g) => s.bumpGen core g.seat) s
  let s := s.setCore core { s.core core with occ := none, halting := false }
  let s := { s with reqs := s.reqs.map fun (x : Nat × Req) => (x.1, x.2.sealedBy core part) }
  let key := part * 512 + core
  if s.recordOk part (coreRecPlace s key) then
    let (s, kept) := s.sealAt part (coreRecPlace s key)
    { s with coreRecs := set s.coreRecs key kept }
  else
    let (s, seq) := s.nextSeq part
    { s with coreRecs := set s.coreRecs key (seq, s.fresh), fresh := s.fresh + 1 }.coreFailed core part

/-- SLICE_END (R50, R369, R372): the slice of the partition on a core ends; a context that is to leave goes once it has drained; or the core
is free and the next partition takes it. -/
def execSliceEnd (core : Nat) (s : State) : Out :=
  let k := s.core core
  match k.occ with
  | none => (match s.nextTurn core k.lastTurn with
    | some n => ok (s.occupy core n)
    | none => ok s)
  | some pid => match s.part pid with
    | none => ok (s.setCore core { k with occ := none })
    | some p =>
      if p.halted || k.halting then
        if !s.drained core pid then ok s
        else
          let s := s.vacate core pid
          let s := s.setCore core { s.core core with sliceclk := put 0 (s.core core).sliceclk pid 0, lastTurn := pid }
          (match s.nextTurn core pid with
          | some n => ok (s.occupy core n)
          | none => ok s)
      else if p.slicelen.toNat ≤ (lookD 0 k.sliceclk pid).toNat then ok (s.endSlice core pid)
      else ok s

end Sys2Proof.Machine
end

