-- ==== Sys2Proof/Machine/Reconfigure.lean ====
section
/-! DEFINITION. Reconfiguration lists (19, R376 to R385, R330), partition teardown (R295), and the sweeper (R386 to R388). -/

namespace Sys2Proof.Machine

/-! ### Lists and what their entries name (R382, R383) -/

/-- Reads n bytes at an offset that an entry names: through the list's capability, or from the list's own address on (R382). It answers
the flat address. -/
def State.listAddr (s : State) (l : CmdList) (off n : Nat) : Option Nat :=
  match l.cap with
  | none => if isHbm (l.addr + off) && decide (l.addr + off + n ≤ 0x6000000000) then some (l.addr + off) else none
  | some (c, _) =>
    let a := c.at off
    if (check14 c 0 permR off n).isSome || isHost a || s.poisoned a n then none
    else match s.parts.find? fun (_, p) => p.inUse && p.colour == c.colour with
      | none => none
      | some (_, p) => if (s.check67 p c.colour c.gen false a n).isSome then none else some a

/-- The offset of the list itself. -/
def CmdList.off (l : CmdList) : Nat :=
  match l.cap with
  | none => 0
  | some (_, o) => o

/-- An entry: four 64-bit words. -/
abbrev Entry := List (BitVec 64)
def ebits (e : Entry) (w hi lo : Nat) : Nat := (e.getD w 0).toNat / 2 ^ lo % 2 ^ (hi + 1 - lo)
def ekind (e : Entry) : Nat := ebits e 0 63 56

/-- The bits of words 0 to 3 that a kind names (R383). -/
def entryBits (kind : Nat) : Option (List (BitVec 64)) :=
  let k : BitVec 64 := 0xFF00000000000000
  let p := k ||| 0x3F
  match kind with
  | 0x01 => some [p, 0xFFFFFFFFFF, 0, 0]
  | 0x02 => some [p, 0xFFFFFFFFFF, 0, 0]
  | 0x03 => some [p, 0, 0, 0]
  | 0x10 => some [k ||| 0x3FFFF, 0x3FFFF, 0xFFFFFFFF00000000, 0]
  | 0x11 => some [k ||| 0x3FFFF, 0x3FFFF, 0, 0]
  | 0x12 => some [k ||| 0x3FFFF, 0x3FFFF, 0x203FC00000000000, 0]
  | 0x13 => some [k ||| 0xFF, 0xFFFFFFFF, 0, 0]
  | 0x20 => some [p ||| 0xFF00, 0xFFFFFFFFFF, 0, 0]
  | 0x21 => some [p ||| 0xFF00, 0xFFFFFFFFFF, 0, 0]
  | 0x22 => some [p ||| 0xFF00, 0, 0, 0]
  | 0x30 => some [k ||| 0x3F0F, 0x3FFFF, 0x3FFFF, 0]
  | 0x31 => some [k ||| 0xF, 0, 0, 0]
  | 0x38 => some [k, 0xFFFFFFFFFF, 0, 0]
  | 0x40 => some [p, 0xFFFFFFFFFFFF, 0xFFFFFFFFFF, 0]
  | 0x41 => some [p, 0, 0, 0]
  | 0x42 => some [p, 0, 0, 0]
  | _ => none

/-- Whether every bit that the kind does not name is 0. An unassigned kind names none but KIND. -/
def entryClean (e : Entry) : Bool :=
  (e.zip ((entryBits (ekind e)).getD [0xFF00000000000000, 0, 0, 0])).all fun (x, m) => x &&& ~~~m == 0

/-- The words of an entry, the bytes and the capability that it names, as they were read (R385). -/
abbrev ListItem.entry (x : ListItem) : Entry := x.words
def ListItem.cap (x : ListItem) : Cap := x.caps.headD Cap.null

/-- The first of some conditions that holds, as its reason. -/
def firstReason (xs : List (Bool × Nat)) : Option Nat := (xs.find? (·.1)).map (·.2)

/-- Applies a change when no condition holds, or when the list has been accepted already. -/
def refuseOr (force : Bool) (xs : List (Bool × Nat)) (s : State) : Except Nat State :=
  match if force then none else firstReason xs with
  | some r => .error r
  | none => .ok s

/-- Whether a partition index is in use, and whether its context is running. -/
def State.used (s : State) (p : Nat) : Bool := ((s.part p).map (·.inUse)).getD false
def State.runs (s : State) (p : Nat) : Bool := (s.context p).state == 1

/-! ### Partition images (R376, R377) -/

def imgBits (bs : List Byte) (hi lo : Nat) : Nat := leNat bs / 2 ^ lo % 2 ^ (hi + 1 - lo)

/-- Whether an image's reserved bits and IN USE are 0. -/
def imageClean (bs : List Byte) : Bool :=
  [(1023, 768), (712, 681), (671, 666), (655, 654), (647, 646), (555, 544), (535, 512)].all fun (hi, lo) => imgBits bs hi lo == 0

/-- A partition table entry with the fields of an image; the rest as it was, or as reset leaves it. -/
def partOfImage (bs : List Byte) (old : Option Part) : Part :=
  let f := imgBits bs
  let fresh : Part :=
    { coreSet := 0, colour := 0, pasid := 0, savebase := 0, slicelen := 0, keyFirst := 0, keyCount := 0, flueFirst := 0, flueCount := 0,
      extentQuota := 0, seatQuota := 0, lineQuota := 0, inUse := true, tvec := 0, halted := false, failed := none, broken := false,
      queues := [], serving := none, grid := [], gridHeld := [], handlers := [] }
  { old.getD fresh with
    coreSet := BitVec.ofNat 512 (f 511 0), colour := BitVec.ofNat 8 (f 543 536), pasid := BitVec.ofNat 20 (f 575 556)
    savebase := BitVec.ofNat 32 (f 607 576), slicelen := BitVec.ofNat 32 (f 639 608), keyFirst := f 645 640, keyCount := f 653 648
    flueFirst := f 680 672, flueCount := f 665 656, extentQuota := f 730 713, seatQuota := f 745 731, lineQuota := f 767 746, inUse := true }

/-- Whether two ranges share a member. -/
def rangesMeet (a n b m : Nat) : Bool := decide (0 < n) && decide (0 < m) && decide (a < b + m) && decide (b < a + n)

/-- Whether a partition's flue or key range overlaps another's in use (R377). -/
def State.rangeTaken (s : State) (i : Nat) (p : Part) : Bool :=
  s.parts.any fun (k, q) => k != i && q.inUse &&
    (rangesMeet p.flueFirst p.flueCount q.flueFirst q.flueCount || rangesMeet p.keyFirst p.keyCount q.keyFirst q.keyCount)

/-- The extents owned or shared-read under a colour (R376). -/
def State.extentsHeld (s : State) (colour : BitVec 8) : Nat :=
  (s.extents.filter fun (_, x) => (extState x == 1 || extState x == 2) && extOwner x == colour).length

/-- Whether a field of an image lies outside its range (R376). -/
def Part.outOfRange (p : Part) : Bool :=
  2097152 < p.lineQuota || 16384 < p.seatQuota || 196608 < p.extentQuota || 512 < p.flueFirst + p.flueCount || 512 < p.flueCount ||
    64 < p.keyFirst + p.keyCount

/-! ### Flue teardown (R295) -/

/-- Alights one live slot to its home, or discards its data and tells the host; the event's LOCATION is the partition (log 37). -/
def State.alightHome (s : State) (pid : Nat) (p : Part) (n : Nat) : State :=
  let x := s.slot n
  if x.state != 1 then s.setSlot n x.emptied
  else
    let a := x.home.toNat
    let bad := if isHost a && !s.linkUp then some (18, a) else s.check67 p x.colour x.gen true a 16
    let s' := match bad with
      | some (cause, _) => s.post 3 cause 0 n 4 pid
      | none =>
        let s := (s.writeBytes (s.pasid pid) a (leBytes 16 x.data.toNat)).touchLine a pid true
        if x.poison && !isHost a then { s with poison := put false s.poison (a / 32) true } else s
    s'.setSlot n x.emptied

/-- Tears down the slots of a range. -/
def State.teardown (s : State) (pid : Nat) (p : Part) (slots : List Nat) : State := slots.foldl (fun s n => s.alightHome pid p n) s

def Part.slotRange (p : Part) : List Nat := (List.range p.flueCount).map (· + p.flueFirst)

/-! ### Extents (R193, R384, R387) -/

/-- Rewrites an extent's entry; the change completes later by R193. -/
def State.setExtent (s : State) (e : Nat) (x : BitVec 64) : State :=
  { s with extents := put 0 s.extents e x, changing := if s.changing.contains e then s.changing else s.changing ++ [e] }

def withState (x : BitVec 64) (n : Nat) : BitVec 64 := (x &&& 0x3FFFFFFFFFFFFFFF) ||| (BitVec.ofNat 64 n <<< 62)

/-- Frees an extent: the next generation, and sweeping (R384). -/
def State.freeExtent (s : State) (e : Nat) : State :=
  let x := s.extent e
  let g := extGen x + 1
  s.setExtent e (withState ((x &&& 0xFFFFFFFF0000FFFF) ||| (g.zeroExtend 64 <<< 16)) 3)

/-- Whether a tile geometry value is valid (R196). -/
def geometryOk (x : Word) : Bool :=
  let width := (x.extractLsb' 24 4).toNat
  let pitch := (x.extractLsb' 0 15).toNat
  x.extractLsb' 28 4 == 0 && x.extractLsb' 15 3 == 0 && width ≤ 6 && 1 ≤ pitch && pitch ≤ 16384 && pitch % 2 ^ width == 0

def extentRange (e : Entry) : List Nat := (List.range (ebits e 1 17 0)).map (· + ebits e 0 17 0)

/-- Whether the extents an entry names lie outside the table, or are none. -/
def extentRangeBad (e : Entry) : Bool := ebits e 1 17 0 == 0 || 196608 < ebits e 0 17 0 + ebits e 1 17 0

/-! ### Task graph images (R329 to R331) -/

/-- A footprint region: base and length, from 16 bytes. -/
def regionOf (bs : List Byte) : Nat × Nat := (leNat (bs.take 6), leNat ((bs.drop 8).take 5))
def regionClean (bs : List Byte) : Bool := leNat ((bs.drop 6).take 2) == 0 && leNat ((bs.drop 13).take 3) == 0

/-- Whether two regions share a byte; a length of 0 is no region. -/
def regionsMeet (a b : Nat × Nat) : Bool := decide (0 < a.2) && decide (0 < b.2) && decide (a.1 < b.1 + b.2) && decide (b.1 < a.1 + a.2)

/-- The regions of node i: READ 0, READ 1, WRITE 0, WRITE 1. -/
def nodeRegions (img : List Byte) (i : Nat) : List (List Byte) :=
  (List.range 4).map fun k => (img.drop (64 + 128 * i + 64 + 16 * k)).take 16

/-- Whether a derived edge joins two nodes (R331). -/
def derived (img : List Byte) (i j : Nat) : Bool :=
  let a := (nodeRegions img i).map regionOf
  let b := (nodeRegions img j).map regionOf
  ((a.drop 2).any fun x => b.any (regionsMeet x)) || (a.take 2).any fun x => (b.drop 2).any (regionsMeet x)

/-- The edges of an image, explicit and derived, each once. -/
def imageEdges (img : List Byte) (n m : Nat) (derive : Bool) : List (Nat × Nat) :=
  let explicit := (List.range m).map fun k =>
    let w := leNat ((img.drop (64 + 128 * n + 4 * k)).take 4)
    (w % 65536, w / 65536)
  let more := if derive then (List.range n).flatMap fun i => ((List.range n).filter fun j => i < j && derived img i j).map fun j => (i, j)
    else []
  (explicit ++ more).foldl (fun es e => if es.contains e then es else es ++ [e]) []

/-- Word i of a graph image's header, and the node and edge counts in it (R329). -/
def imageWord (img : List Byte) (i : Nat) : Nat := leNat ((img.drop (4 * i)).take 4)
def imageNodes (img : List Byte) : Nat := imageWord img 0 % 2 ^ 13
def imageArcs (img : List Byte) : Nat := imageWord img 1 % 2 ^ 17

/-- The size of a graph image, from its header. -/
def imageSize (head : List Byte) : Nat := 64 + 128 * imageNodes head + 4 * imageArcs head

/-- The launch record of node i of an image, with the tags that the granules of its capabilities were read with. -/
def ListItem.node (x : ListItem) (i : Nat) : LaunchRec :=
  let tag := fun k => (x.caps.getD (2 * i + k) Cap.null).tag
  { bits := BitVec.ofNat 512 (leNat ((x.data.drop (64 + 128 * i)).take 64)), tags := (if tag 0 then 1 else 0) ||| (if tag 1 then 2 else 0),
    addr := 0, node := none }

/-- GRAPH LOAD (R329, R330). -/
def State.loadGraph (s : State) (force : Bool) (x : ListItem) : Except Nat State :=
  let e := x.entry
  let p := ebits e 0 5 0
  let graph := ebits e 0 15 8
  let off := ebits e 1 39 0
  let key := p * 256 + graph
  let img := x.data
  let w := imageWord img
  let n := imageNodes img
  let m := imageArcs img
  let completion := w 2 % 16
  let badHead := 2 ^ 13 ≤ w 0 || 2 ^ 17 ≤ w 1 || 16 ≤ w 2 || 2 ≤ w 3 || ((List.range 12).any fun i => w (4 + i) != 0) || n == 0 ||
    4096 < n || (8 ≤ completion && completion < 15) ||
    (List.range n).any fun i => (nodeRegions img i).any fun r => !regionClean r
  let edges := imageEdges img n m (w 3 % 2 == 1)
  let badEdge := (imageEdges img n m false).any fun (i, j) => j ≤ i || n ≤ j
  let full := 16384 < s.graphs.foldl (fun k x => k + x.2.nodes.length) n || 131072 < s.graphs.foldl (fun k x => k + x.2.edges.length) edges.length
  let g : Graph :=
    { part := p, number := graph, nodes := (List.range n).map x.node, edges := edges, completion := completion, triggers := [], running := false,
      counts := [], entered := [], waiting := [], done := [], failed := none }
  refuseOr force [(!entryClean e, 1), (badHead, 0x0601), (badEdge, 0x0602), (full, 0x0603), ((look s.graphs key).isSome, 0x0604),
      (off % 64 != 0 || 65536 < m, 3), (!s.used p, 4)]
    { s with graphs := set s.graphs key g }

/-! ### Contexts (R384) -/

/-- The slot that takes a context key: an empty one outside every partition's key range if there is one (log 39). -/
def State.contextSlot (s : State) (p : Part) : Option Nat :=
  let empty := (List.range 64).filter fun n => (lookD { state := 0, colour := 0, key := 0 } s.keySlots n : KeySlot).state == 0
  let apart := empty.filter fun n => !s.parts.any fun (_, q) => q.inUse && decide (q.keyFirst ≤ n) && decide (n < q.keyFirst + q.keyCount)
  (apart ++ empty.filter fun n => decide (p.keyFirst ≤ n) && decide (n < p.keyFirst + p.keyCount)).head?

/-- The size of a partition's context area (R358). -/
def Part.areaSize (p : Part) : Nat := 0x2000000 + ((List.range 512).filter p.coreSet.getLsbD).length * 0x200000

/-- CONTEXT START (R384, R414). Where no slot is empty the context has no key of its own (log 39). -/
def State.startContext (s : State) (pid : Nat) (p : Part) : State :=
  let c := s.context pid
  let start := s.nv.start + 1
  let saved := ((s.nv.saves.find? fun x => x.1 == c.measurement).map (·.2)).getD 0
  let s := { s with nv := { s.nv with start := start } }
  let slot := s.contextSlot p
  let s := match slot with
    | none => s
    | some n =>
      let k : KeySlot := { state := 2, colour := p.colour, key := (contextKey c.measurement start pid).zeroExtend 512 }
      { s with keySlots := set s.keySlots n k }
  let s := s.setContext pid { c with state := 1, saveCounter := saved, keySlot := BitVec.ofNat 6 (slot.getD 0), keyHeld := slot.isSome }
  { s with parts := modify s.parts pid fun p => { p with halted := false, failed := none, broken := false } }

/-- What a core keeps for a partition's context goes: SLICECLK, PERF and PERFSEL, messages waiting for it, and the core itself (R72, R384, R391). -/
def Core.forget (k : Core) (pid : Nat) : Core :=
  let mine := fun n => n / 16 == pid
  { k with
    occ := if k.occ == some pid then none else k.occ
    halting := k.halting && k.occ != some pid
    sliceclk := del k.sliceclk pid
    perf := k.perf.filter fun x => !mine x.1
    perfsel := k.perfsel.filter fun x => !mine x.1
    selNow := k.selNow.filter fun x => !mine x.1
    inbound := k.inbound.filter fun m => m.part != pid }

/-- A partition's context goes: its gangs and blocks on every core, with their records, launches, commands and messages (R384). Stores that are
already on their way are made, an alighting's among them; the updates that a halt has saved in its records are not (R229). -/
def State.discard (s : State) (pid : Nat) : State :=
  let gone := (s.blocks.filter fun (_, (b : Block)) => b.part == pid).map (·.1)
  let idle := fun (g : Graph) => if g.part == pid then
      ({ g with triggers := [], running := false, waiting := [], entered := [], done := [], failed := none } : Graph) else g
  let s : State := { s with
    gangs := s.gangs.filter fun (_, g) => !gone.contains g.block
    blocks := s.blocks.filter fun (_, b) => b.part != pid
    groups := s.groups.filter fun (_, g) => ((look s.launches g.launch).map fun (x : Launch) => x.part) != some pid
    launches := s.launches.filter fun (_, x) => x.part != pid
    engines := s.engines.filter fun (_, e) => e.part != pid
    matrix := s.matrix.filter fun o => o.part != pid
    tileOps := s.tileOps.filter fun (_, o) => o.part != pid
    drains := s.drains.filter fun (_, o) => o.part != pid
    reqs := s.reqs.filter fun (_, r) => r.part != pid || (r.inFlight && r.acc.writes && r.acc != .sign && !r.acc.seated)
    flueOps := s.flueOps.filter fun (_, o) => o.part != pid || (o.away && o.fault.isNone)
    coreRecs := s.coreRecs.filter fun (k, _) => k / 512 != pid
    evictRecs := s.evictRecs.filter fun (k, _) => k / 1024 != pid
    pageWaits := s.pageWaits.filter fun (_, p, _, _) => p != pid
    graphs := s.graphs.map fun (k, g) => (k, idle g)
    cores := s.cores.map fun (n, k) => (n, k.forget pid)
    overflow := s.overflow.filter fun x => x.msg.part != pid
    parts := modify s.parts pid fun p => { p with queues := [], serving := none, gridHeld := [] } }
  s.unspillAll

/-- CONTEXT END of a context that no core holds any more (R384). -/
def State.endContext (s : State) (pid : Nat) : State :=
  let c := s.context pid
  let wipe := fun (k : KeySlot) => ({ k with state := 0, colour := 0, key := 0 } : KeySlot)
  let unpair := fun (x : Port) => x.unpair fun y => y.1 == pid
  let s : State := { s with
    nv := { s.nv with saves := (c.measurement, c.saveCounter) :: s.nv.saves.filter fun x => x.1 != c.measurement }
    keySlots := if c.keyHeld then modify s.keySlots c.keySlot.toNat wipe else s.keySlots
    ports := s.ports.map fun (n, x) => (n, unpair x) }
  (s.discard pid).setContext pid { c with state := 3, keyHeld := false }

/-- PARTITION DELETE (R384). A halted context goes with its partition's gangs and blocks (R365), and its entries of the page-request queue are
free (R204). -/
def State.deletePart (s : State) (pid : Nat) (p : Part) : State :=
  let s := s.teardown pid p p.slotRange
  let s := (s.extents.filter fun (_, x) => (extState x == 1 || extState x == 2) && extOwner x == p.colour).foldl
    (fun s (e, _) => s.freeExtent e) s
  let s := s.discard pid
  let s : State := { s with
    graphs := s.graphs.filter fun (_, g) => g.part != pid
    channels := s.channels.filter fun (_, c) => c.part != pid
    cores := s.cores.map fun (n, k) => (n, { k with outbound := k.outbound.filter fun m => m.part != pid })
    ports := s.ports.map fun (n, x) => (n, x.unpair fun y => y.1 == pid)
    parts := del s.parts pid
    pageReqs := s.pageReqs.filter fun x => x.part != pid
    retired := s.retired ++ [p.colour]
    freed := true }
  s.promote

/-! ### The entries (R383, R384) -/

/-- The flue slots that a partition's new image takes from it. -/
def State.slotsLeft (s : State) (i : Nat) (x : ListItem) (modifies : Bool) : List Nat :=
  match s.part i with
  | some q => if modifies then q.slotRange.filter fun n => !(partOfImage x.data (some q)).slotRange.contains n else []
  | none => []

/-- Checks and applies PARTITION CREATE and MODIFY. -/
def State.imageEntry (s : State) (force : Bool) (x : ListItem) (modifies : Bool) : Except Nat State :=
  let e := x.entry
  let i := ebits e 0 5 0
  let off := ebits e 1 39 0
  let bs := x.data
  let old := s.part i
  let p := partOfImage bs (if modifies then old else none)
  let colourBad := s.retired.contains p.colour || s.parts.any fun (k, q) => k != i && q.inUse && q.colour == p.colour
  let state := if modifies then !s.used i || (old.any fun q => q.colour != p.colour) else s.used i
  refuseOr force [(!entryClean e || !imageClean bs, 1), (state, 4), (colourBad, 7), (s.rangeTaken i p, 0xC),
      (p.coreSet == 0 || p.slicelen.toNat < 65536, 3), (modifies && s.runs i, 5), (off % 128 != 0 || p.outOfRange, 3),
      (p.extentQuota < s.extentsHeld p.colour, 6)]
    ((s.teardown i (old.getD p) (s.slotsLeft i x modifies)).setPart i p).promote

/-- Checks and applies the extent kinds. -/
def State.extentEntry (s : State) (force : Bool) (e : Entry) : Except Nat State :=
  let range := extentRange e
  let x := e.getD 2 0
  let tiledBad := fun (x : BitVec 64) => extTiled x && !geometryOk (lookD 0 s.geometry (extGeometry x))
  let geo := fun (x : BitVec 64) => tiledBad x
  match ekind e with
  | 0x10 =>
    let owner := (s.parts.find? fun (_, p) => p.inUse && p.colour == extOwner x).map (·.2)
    let quota := match owner with
      | some p => p.extentQuota < s.extentsHeld p.colour + range.length
      | none => false
    let cipher := extCipher x && (!s.confidential || !(owner.any fun p => decide (p.keyFirst ≤ extKey x) && decide (extKey x < p.keyFirst + p.keyCount)))
    refuseOr force [(!entryClean e || x.extractLsb' 40 6 != 0, 1), (range.any fun n => extState (s.extent n) != 0, 4),
        (!(extState x == 1 || extState x == 2), 3), (owner.isNone, 7), (quota, 6), (geo x, 0xB), (cipher, 0xA), (extentRangeBad e, 3)]
      (range.foldl (fun s n => s.setExtent n ((x &&& 0xFFFFFFFF00000000) ||| (s.extent n &&& 0xFFFF0000))) s)
  | 0x11 =>
    refuseOr force [(!entryClean e, 1), (range.any fun n => extState (s.extent n) == 0 || extState (s.extent n) == 3, 4), (extentRangeBad e, 3)]
      (range.foldl State.freeExtent s)
  | _ =>
    let running := range.any fun n => s.parts.any fun (k, p) => p.inUse && p.colour == extOwner (s.extent n) && s.runs k
    refuseOr force [(!entryClean e, 1), (range.any fun n => extState (s.extent n) == 0 || extState (s.extent n) == 3, 4), (geo x, 0xB),
        (running, 5), (extentRangeBad e, 3)]
      (range.foldl (fun s n =>
        let m : BitVec 64 := 0x203FC00000000000
        (s.dropExtent n).setExtent n ((s.extent n &&& ~~~m) ||| (x &&& m))) s)

/-- Whether a handler's header breaks R347. -/
def handlerBad (h : Header) : Bool :=
  h.gangs != 1 || h.regs < 16 || h.scratch != 0 || h.tiles != 0 || h.banks != 0 || h.blockBars != 0 || h.clusterBars != 0 || h.gridBars != 0

/-- HANDLER SET. -/
def State.handlerEntry (s : State) (force : Bool) (x : ListItem) : Except Nat State :=
  let e := x.entry
  let i := ebits e 0 5 0
  let h := ebits e 0 15 8
  let c := x.cap
  match s.part i with
  | none => if force then .ok s else .error (if entryClean e then 4 else 1)
  | some p =>
    let capBad := c.tag && (!c.allows permX || c.type != 0 || c.colour != p.colour)
    let unread := match s.readHeader i p c with | .error _ => true | .ok _ => false
    refuseOr force [(c.tag && p.inUse && !capBad && unread, 0xD), (!entryClean e, 1), (!p.inUse, 4), (capBad, 8), (c.tag && handlerBad (headerOf (wordsOf 4 x.data)), 9)]
      (s.setPart i { p with handlers := if c.tag then set p.handlers h c else del p.handlers h })

/-- CHANNEL OPEN and CLOSE (R319, R384). -/
def State.channelEntry (s : State) (force : Bool) (e : Entry) : Except Nat State :=
  let n := ebits e 0 3 0
  let c := lookD Channel.closed s.channels n
  if ekind e == 0x31 then
    refuseOr force [(!entryClean e, 1), (c.state == 0, 4)] { s with channels := del s.channels n }
  else
    let p := ebits e 0 13 8
    let first := ebits e 1 17 0
    let count := ebits e 2 17 0
    let colour := (s.part p).map (·.colour)
    let foreign := (List.range count).any fun k => extState (s.extent (first + k)) != 1 || some (extOwner (s.extent (first + k))) != colour
    refuseOr force [(!entryClean e, 1), (count == 0 || 32768 < count, 3), (c.state != 0 || !s.used p || foreign, 4), (196608 < first + count, 3)]
      { s with channels := put Channel.closed s.channels n { Channel.closed with state := 1, part := p, first := first, count := count } }

/-- MEASURE (R384). -/
def State.measureEntry (s : State) (force : Bool) (e : Entry) : Except Nat State :=
  let i := ebits e 0 5 0
  let base := ebits e 1 47 0
  let len := ebits e 2 39 0
  let c := s.context i
  let colour := (s.part i).map (·.colour)
  let foreign := (extentsOf base (max len 1)).any fun n => !((extState (s.extent n) == 1 || extState (s.extent n) == 2) &&
    some (extOwner (s.extent n)) == colour)
  let c0 := if c.state == 3 then { c with measurement := 0, saveCounter := 0, haltSeq := 0, state := 0 } else c
  refuseOr force [(!(isHbm base && decide (base + len ≤ 0x6000000000)) || s.poisoned base len, 0xD), (!entryClean e, 1),
      (c.state == 1 || c.state == 2 || foreign || !s.used i, 4), (len == 0, 3)]
    (s.setContext i { c0 with measurement := Config.sha3 (bytes64 c0.measurement ++ bytes64 (Config.sha3 (s.bytesAt 0 base len))) })

/-- Whether a GRAPH.TRIG that has passed waits for a graph's queue (R332). -/
def State.joins (s : State) (part graph : Nat) : Bool :=
  s.reqs.any fun (_, r) => r.part == part && (match r.acc with | .join g _ => g % 256 == graph | _ => false)

/-- Checks one entry against the tables as the earlier entries leave them, and applies it (R383 to R385). force: the list has been accepted. -/
def State.applyEntry (s : State) (force : Bool) (x : ListItem) : Except Nat State :=
  let e := x.entry
  let i := ebits e 0 5 0
  let missing : Except Nat State := if force then .ok s else .error (if entryClean e then 4 else 1)
  match ekind e with
  | 0x01 => s.imageEntry force x false
  | 0x02 => s.imageEntry force x true
  | 0x03 => (match s.part i with
    | some p => refuseOr force [(!entryClean e, 1), (!p.inUse, 4), (s.runs i, 5)] (s.deletePart i p)
    | none => missing)
  | 0x10 => s.extentEntry force e
  | 0x11 => s.extentEntry force e
  | 0x12 => s.extentEntry force e
  | 0x13 =>
    let n := ebits e 0 7 0
    let v := BitVec.ofNat 32 (ebits e 1 31 0)
    refuseOr force [(!entryClean e, 1), (!geometryOk v, 0xB),
        (s.extents.any fun (_, x) => (extState x == 1 || extState x == 2) && extTiled x && extGeometry x == n, 4)]
      { s with geometry := put 0 s.geometry n v }
  | 0x20 => s.handlerEntry force x
  | 0x21 => s.loadGraph force x
  | 0x22 =>
    let key := i * 256 + ebits e 0 15 8
    (match look s.graphs key with
    | some g => refuseOr force [(!entryClean e, 1), (g.running || !g.triggers.isEmpty || s.joins i g.number, 0x0605)] { s with graphs := del s.graphs key }
    | none => missing)
  | 0x30 => s.channelEntry force e
  | 0x31 => s.channelEntry force e
  | 0x38 =>
    let c := x.cap
    refuseOr force [(!entryClean e, 1), (!c.tag || c.type != 0 || !c.allows permX, 8)]
      { s with hypRecord := c, hypHash := Config.sha3 x.data, hypSet := true }
  | 0x40 => s.measureEntry force e
  | 0x41 => (match s.part i with
    | some p => refuseOr force [(!entryClean e, 1), (!p.inUse || (s.context i).state != 0 || !s.ownArea p p.area p.areaSize, 4)] (s.startContext i p)
    | none => missing)
  | 0x42 => refuseOr force [(!entryClean e, 1), (!((s.context i).state == 1 || (s.context i).state == 2), 4)] (s.endContext i)
  | _ => if force then .ok s else .error (if entryClean e then 2 else 1)

/-! ### A list from its reading to its result (R382, R385) -/

/-- The bytes that an entry names at an offset, if they may be read. -/
def State.listBytes (s : State) (l : CmdList) (off n : Nat) : Option (List Byte) := (s.listAddr l off n).map fun a => s.bytesAt 0 a n

/-- The granules of a range with their tags, as a capability load moves them (R387); untagged where the range is not aligned. -/
def State.listCaps (s : State) (l : CmdList) (off : Nat) : Option Cap :=
  (s.listAddr l off 16).map fun a => if a % 16 == 0 then s.moved (s.capAt a) else ⟨BitVec.ofNat 128 (leNat (s.bytesAt 0 a 16)), false⟩

/-- Reads an entry's data: an image, a capability with the header or the code it leads to, or a graph image with the tags of its records. -/
def State.readItem (s : State) (l : CmdList) (e : Entry) : Option ListItem :=
  let off := ebits e 1 39 0
  match ekind e with
  | 0x01 => (s.listBytes l off 128).map fun bs => { words := e, data := bs, caps := [] }
  | 0x02 => (s.listBytes l off 128).map fun bs => { words := e, data := bs, caps := [] }
  | 0x20 => (s.listCaps l off).map fun c => { words := e, data := s.bytesAt (s.pasid (ebits e 0 5 0)) c.flat 16, caps := [c] }
  | 0x38 => (s.listCaps l off).map fun c => { words := e, data := s.bytesAt 0 c.flat c.len, caps := [c] }
  | 0x21 => (s.listBytes l off 64).bind fun head => (s.listBytes l off (imageSize head)).map fun img =>
      { words := e, data := img, caps := (List.range (2 * imageNodes head)).map fun k =>
          (s.listCaps l (off + 64 + 128 * (k / 2) + 16 * (k % 2))).getD Cap.null }
  | _ => some { words := e, data := [], caps := [] }

/-- The entries of a list with their data, none for one that cannot be read; or the reason where the header's read fails or it is wrong
(R382). -/
def State.readList (s : State) (l : CmdList) : Except Nat (List (Option ListItem)) :=
  match s.listAddr l l.off 16 with
  | none => .error 0x000D
  | some a =>
    let head := leNat (s.bytesAt 0 a 16)
    if 64 ≤ head || head == 0 then .error 1
    else .ok ((List.range (head % 64)).map fun i => (s.listAddr l (l.off + 16 + 32 * i) 32).bind fun b =>
      s.readItem l ((List.range 4).map fun k => BitVec.ofNat 64 (leNat (s.bytesAt 0 (b + 8 * k) 8))))

/-- The run that an access of the security controller for a list makes: for the partition whose capability leads to the list, or for the host (R200,
R381, R405). -/
def State.listTouch (s : State) (l : CmdList) (a n : Nat) : State :=
  match l.cap.bind fun x => s.parts.find? fun (_, p) => p.inUse && p.colour == x.1.colour with
  | some (p, _) => s.touchRun a n p false
  | none => s.touchHeld a n false

/-- The lines that the reading of a list touches: its header and entries, what they name, and what a capability among that leads to. -/
def State.listTouched (s : State) (l : CmdList) (items : List ListItem) : State :=
  let at_ := fun (s : State) (off n : Nat) => match s.listAddr l off n with
    | some a => s.listTouch l a n
    | none => s
  items.foldl (fun s x =>
    let led := ekind x.entry == 0x20 || ekind x.entry == 0x38
    let s := if x.data.isEmpty then s else at_ s (ebits x.entry 1 39 0) (if led then 16 else x.data.length)
    if led then x.caps.foldl (fun s c => s.listTouch l c.flat x.data.length) s else s) (at_ s l.off (16 + 32 * items.length))

/-- Checks and applies entries in order: the first failing index with its reason, or the state after all. An entry that cannot be read fails
at its index. -/
def State.applyEntries (s : State) : List (Option ListItem) → Nat → Except (Nat × Nat) State
  | [], _ => .ok s
  | none :: _, i => .error (i, 0x000D)
  | some x :: r, i =>
    match s.applyEntry false x with
    | .error reason => .error (i, reason)
    | .ok s => s.applyEntries r (i + 1)

/-- Applies the entries of a list that has been accepted: it is rejected no more. -/
def State.applyAccepted (s : State) (xs : List ListItem) : State :=
  xs.foldl (fun s x => match s.applyEntry true x with | .ok t => t | .error _ => s) s

/-- The contexts that a list ends. -/
def endings (xs : List ListItem) : List Nat := (xs.filter fun x => ekind x.entry == 0x42).map fun x => ebits x.entry 0 5 0

/-- Whether the application of an accepted list must still wait: for a context that it ends to leave its cores, as PHALT halts it (R384), or
for an alighting in progress from a slot that it tears down (R295). -/
def State.awaits (s : State) (xs : List ListItem) : Bool :=
  let slots := xs.flatMap fun x =>
    let i := ebits x.entry 0 5 0
    if ekind x.entry == 0x03 then ((s.part i).map Part.slotRange).getD []
    else if ekind x.entry == 0x02 then s.slotsLeft i x true
    else []
  ((endings xs).any fun p => s.cores.any fun (_, k) => k.occ == some p) || slots.any fun n => (s.slot n).state == 2

/-- Gives a list's result word to its issuer: the fill of S[b], an acquire at device scope, or the mailbox (R381, R405). -/
def State.listResult (s : State) (l : CmdList) (w : Word) : State :=
  match l.dest with
  | some (gid, key) =>
    (match s.gang gid with
    | none => s
    | some g => (s.setGang gid (g.setS key w)).clearL1 (s.coreOf g))
  | none => { s with mailbox := { s.mailbox with result := w, busy := false, status := 0, run := none } }

/-- The list at the head of the queue leaves it with its result word. -/
def State.endList (s : State) (l : CmdList) (w : Word) : State := { s with cmdQueue := s.cmdQueue.drop 1 }.listResult l w

/-- The list at the head of the queue goes on to a stage. -/
def State.listStage (s : State) (x : ListStage) : State :=
  { s with cmdQueue := match s.cmdQueue with | l :: r => { l with stage := x } :: r | [] => [] }

/-- A list has been applied: its result comes once no memory, slice or L1 holds a changed extent under its old entry (R193). -/
def State.listApplied (s : State) (l : CmdList) : State := if s.changing.isEmpty then s.endList l 0 else s.listStage (.applied s.changing)

/-- RECONFIGURATION_LIST_APPLY (R385): the oldest list is read as one snapshot, and applied whole or rejected. A list that ends a context which
still holds a core first halts it, as PHALT does (R384; log 101). -/
def execReconfigurationListApply (s : State) : Out :=
  match s.cmdQueue with
  | [] => ok s
  | l :: _ =>
    let reject := fun (i reason : Nat) => ok (s.endList l (BitVec.ofNat 32 (2 ^ 31 + i * 2 ^ 16 + reason)))
    match l.stage with
    | .applied es => if es.any s.changing.contains then ok s else ok (s.endList l 0)
    | .accepted xs => if s.awaits xs then ok s else ok ((s.applyAccepted xs).listApplied l)
    | .queued => match s.readList l with
      | .error reason => reject 0 reason
      | .ok xs =>
        let s := s.listTouched l (xs.filterMap id)
        let reject := fun (i reason : Nat) => ok (s.endList l (BitVec.ofNat 32 (2 ^ 31 + i * 2 ^ 16 + reason)))
        match s.applyEntries xs 0 with
        | .error (i, reason) => reject i reason
        | .ok t =>
          let items := xs.filterMap id
          if s.awaits items then ok (((endings items).foldl State.haltPart s).listStage (.accepted items))
          else ok (t.listApplied l)

/-! ### The sweeper (R386, R387) -/

/-- Clears the stale tags of a gang's registers. -/
def State.sweepGang (s : State) (g : Gang) : Gang :=
  { g with
    c := g.c.filterMap fun (k, c) =>
      let c := s.swept c
      if c == Cap.null then none else some (k, c)
    vTag := g.vTag.filterMap fun (k, m) =>
      let m := m &&& ~~~maskOf fun l => m.getLsbD l && s.stale (g.quadAt (4 * k) l)
      if m == 0 then none else some (k, m)
    traps := g.traps.map fun (k, t) => (k, { t with frame := s.swept t.frame }) }

/-- Clears the stale tags of a block's scratchpad. -/
def State.sweepPad (s : State) (b : Block) : Block :=
  { b with padTag := b.padTag.filter fun (k, _) => !s.stale ⟨BitVec.ofNat 128 (leNat (b.padBytes (16 * k) 16)), true⟩ }

/-- Clears the stale tags of capabilities on their way to memory or to a register (R387). -/
def State.sweepReq (s : State) (r : Req) : Req :=
  match r.acc, r.stage with
  | .storeCap c, _ => { r with acc := .storeCap (s.swept c) }
  | .loadCap _, .replied w true =>
    { r with stage := .replied w (s.swept ⟨w.getD 3 0 ++ w.getD 2 0 ++ w.getD 1 0 ++ w.getD 0 0, true⟩).tag }
  | _, _ => r

/-- What the sweeper does with records costs no partition: it is static power of the device (R388, R396). -/
def State.atDevice (s t : State) : State := { t with tally := s.tally }

/-- Opens and reseals records under fresh HALT SEQUENCE values (R386). One that does not open (R370), or that the device may not reach (R442),
stays as it is. -/
def resealAll (recs : Store (Nat × Nat)) (partOf : Nat → Nat) (place : Nat → Nat × Nat) (s : State) : State × Store (Nat × Nat) :=
  recs.foldl (fun (s, out) (k, kept) =>
    if !s.recordOk (partOf k) (place k) || (s.sealCause (partOf k) (place k) kept).isSome then (s, out ++ [(k, kept)])
    else let (s, kept) := s.sealAt (partOf k) (place k); (s, out ++ [(k, kept)])) (s, [])

/-- SWEEP_PASS (R386): a pass starts, and clears the stale tags. -/
def execSweepPass (s : State) : Out :=
  let sweeping := (s.extents.filter fun (e, x) => extState x == 3 && !s.changing.contains e).map (·.1)
  let wanted := s.sweepAsked || !s.retired.isEmpty || s.extents.any fun (_, x) => extState x == 3
  if s.sweep.isSome || !wanted then ok s
  else
    let tags := s.tags.filter fun (k, _) => !s.stale (s.capAt (16 * k))
    let s1 := { s with
      sweep := some { extents := sweeping, colours := s.retired }, sweepAsked := false, tags := tags
      gangs := s.gangs.map fun (k, g) => (k, s.sweepGang g)
      reqs := s.reqs.map fun (k, r) => (k, s.sweepReq r)
      blocks := s.blocks.map fun (k, b) => (k, s.sweepPad b) }
    let (s2, cr) := resealAll s1.coreRecs (· / 512) (coreRecPlace s1) s1
    let (s3, er) := resealAll s1.evictRecs (· / 1024) (evictRecPlace s1) s2
    ok (s.atDevice { s3 with coreRecs := cr, evictRecs := er })

/-- Whether a list stands between its acceptance and its application: the sweeper's changes of STATE wait for it (R385). -/
def State.listAccepted (s : State) : Bool := s.cmdQueue.any fun l => match l.stage with | .accepted _ => true | _ => false

/-- SWEEP_PASS_COMPLETION (R386, R387). -/
def execSweepPassCompletion (s : State) : Out :=
  match s.sweep with
  | none => ok s
  | some w =>
    if s.listAccepted then ok s
    else ok { s with
      sweep := none, sweepPass := s.sweepPass + 1
      extents := w.extents.foldl (fun m e => let x := lookD 0 m e; if extState x == 3 then put 0 m e (withState x 0) else m) s.extents
      retired := s.retired.filter fun c => !w.colours.contains c }

end Sys2Proof.Machine
end

