-- ==== Sys2Proof/Machine/Mailbox.lean ====
section
/-! DEFINITION. The mailbox commands (21, R405, R407, R409 to R411, R413), signed readings and reports (20, R402), the scrub (R407), device
reset and power loss (R400, R415, R416). -/

namespace Sys2Proof.Machine

/-! ### Commands -/

/-- Runs a command of the mailbox that has been started. named: the bits of MBARG0 to MBARG3 that the command names; a reserved bit ends it with
STATUS 2. A command without a start does nothing (log 7). -/
def State.command (s : State) (code : Nat) (named : List Word) (f : List Word → List Byte → State) : Out :=
  match s.mailbox.run with
  | none => ok s
  | some (cmd, args, data) =>
    if cmd.toNat != code then ok s
    else if (args.zip named).any fun (x, m) => x &&& ~~~m != 0 then ok (s.finish 2 [])
    else ok (f args data)

/-- The bits of the address arguments. -/
def addrArgs (arg0 : Word) : List Word := [arg0, 0xFFFFFFFF, 0xFFFF, 0]

/-- A flat address argument (R405). -/
def flatArg (args : List Word) : Nat := (args.getD 1 0).toNat + 2 ^ 32 * (args.getD 2 0).toNat
def argBits (args : List Word) (hi lo : Nat) : Nat := (args.getD 0 0).toNat / 2 ^ lo % 2 ^ (hi + 1 - lo)

/-- A partition that an argument names and that is in use. -/
def State.inUse (s : State) (n : Nat) : Option Part := match s.part n with | some p => if p.inUse then some p else none | none => none

/-- MAILBOX_LAUNCH (R405): the record enters its level; the checks of R29 follow at dispatch. A record that cannot be read is not
entered (log 41). -/
def execMailboxLaunch (s : State) : Out :=
  s.command 1 (addrArgs 0x3F) fun args _ =>
    let pid := argBits args 5 0
    let a := flatArg args
    match s.inUse pid with
    | none => s.finish 7 []
    | some p =>
      if a % 64 != 0 || !s.ownArea p a 64 || s.poisoned a 64 then s.finish 4 []
      else match (s.touchRun a 64 pid false).enqueue pid (s.recordAt 0 a true) with
        | none => s.finish 5 []
        | some s => s.finish 0 []

/-- MAILBOX_GRAPH_TRIG (R332, R333, R405). -/
def execMailboxGraphTrig (s : State) : Out :=
  s.command 2 (addrArgs 0xFF3F) fun args _ =>
    let pid := argBits args 5 0
    let a := flatArg args
    match s.inUse pid with
    | none => s.finish 7 []
    | some p =>
      let head := leNat (s.bytesAt 0 a 16)
      let count := head % 64
      let size := 16 + 8 * count
      let xs := (List.range count).map fun i => leNat (s.bytesAt 0 (a + 16 + 8 * i) 8)
      let key := pid * 256 + argBits args 15 8
      match look s.graphs key with
      | none => s.finish 4 []
      | some g =>
        if a % 16 != 0 || !s.ownArea p a size || s.poisoned a size || 32 < count || head / 64 != 0 || !xs.all patchClean ||
            xs.any (fun x => decide (g.nodes.length ≤ (patchOf x).1) || decide ((patchOf x).2.1 < 8)) then s.finish 4 []
        else if 4 ≤ g.triggers.length then s.finish 5 []
        else { s.touchRun a size pid false with graphs := set s.graphs key { g with triggers := g.triggers ++ [xs.map patchOf] } }.finish 0 []

/-- RECONFIGURE (R405, R416): the list joins the queue, and BUSY stays until it has been served. -/
def execReconfigure (s : State) : Out :=
  s.command 3 (addrArgs 0) fun args _ =>
    let a := flatArg args
    if s.confidential && s.hypSet then s.finish 3 []
    else if a % 32 != 0 then s.finish 4 []
    else if 16 ≤ s.cmdQueue.length then s.finish 5 []
    else { s with cmdQueue := s.cmdQueue ++ [{ addr := a, cap := none, dest := none }], mailbox := { s.mailbox with run := none } }

/-! ### Signatures (R402, R410) -/

/-- The n bytes that a list of bytes fills from its start. -/
def fit (n : Nat) (bs : List Byte) : List Byte := (List.range n).map fun i => bs.getD i 0

/-- The next signature's SEQUENCE (R402; log 47). -/
def State.signature (s : State) : State × BitVec 64 :=
  let n := s.energy.seqNo + 1
  ({ s with energy := { s.energy with seqNo := n } }, n)

/-- A signed reading of an account: 256 is the device account (R402). -/
def State.reading (s : State) (account : Nat) : State × List Byte :=
  let (s, n) := s.signature
  let dev := account == 256
  let body := leBytes 4 0x52454E45 ++ leBytes 2 1 ++ leBytes 1 (if dev then 0 else account) ++ leBytes 1 (if dev then 1 else 0) ++
    leBytes 8 n.toNat ++ leBytes 8 (lookD 0 s.energy.counts account).toNat ++ leBytes 8 0 ++ leBytes 8 s.energy.window.toNat ++
    leBytes 4 s.energy.gaps.toNat ++ leBytes 4 0 ++ bytes64 Config.identity ++ leBytes 16 0
  (s, body ++ fit 4627 (Config.sign body) ++ leBytes 109 0)

/-- ENERGY_READ (R405): the device account, whatever the colour, or a colour's. -/
def execEnergyRead (s : State) : Out :=
  s.command 4 [0x1FF, 0, 0, 0] fun args _ =>
    let dev := argBits args 8 8 == 1
    let (s, bs) := s.reading (if dev then 256 else argBits args 7 0)
    s.finish 0 bs

/-- The report of R410 with a nonce. -/
def State.report (s : State) (nonce : List Byte) : State × List Byte :=
  let (s, n) := s.signature
  let contexts := (List.range 64).foldl (fun x i => if s.alive i then x + 2 ^ i else x) 0
  let body := leBytes 4 0x54505441 ++ leBytes 2 1 ++ leBytes 1 (if s.confidential then 1 else 0) ++ leBytes 1 0 ++ leBytes 8 n.toNat ++
    fit 64 nonce ++ bytes64 Config.identity ++ bytes64 Config.firmware ++ bytes64 s.hypHash ++
    bytes64 (Config.sha3 ((List.range 128).flatMap fun i => leBytes 4 (lookD 0 s.allowList i).toNat)) ++ leBytes 8 contexts ++
    leBytes 8 s.auditCount.toNat ++ ((List.range 64).flatMap fun i => bytes64 (s.context i).measurement) ++
    bytes64 (Config.sha3 (fit 1568 Config.kemPublic))
  (s, body ++ fit 4627 (Config.sign body) ++ leBytes 77 0)

/-- ATTEST (R410). With a nonce of zeros the certificate chain follows the report (log 48). -/
def execAttest (s : State) : Out :=
  s.command 5 [0, 0, 0, 0] fun _ data =>
    let nonce := data.take 64
    let (s, bs) := s.report nonce
    s.finish 0 (bs ++ if leNat nonce == 0 then fit 7168 Config.chain else [])

/-- KEM_KEY (R405). -/
def execKemKey (s : State) : Out := s.command 6 [0, 0, 0, 0] fun _ _ => s.finish 0 (fit 1568 Config.kemPublic)

/-! ### Keys (R409, R411, R413) -/

/-- The GCM key of a shared secret (R409). -/
def gcmKey (secret : BitVec 256) : BitVec 256 := (Config.sha3 (leBytes 32 secret.toNat)).extractLsb' 0 256

/-- KEY_LOAD (R409). -/
def execKeyLoad (s : State) : Out :=
  s.command 7 [0x3F3F, 0, 0, 0] fun args data =>
    let pid := argBits args 5 0
    let slot := argBits args 13 8
    let wanted := (data.drop 1568).take 64
    let nonce := leNat ((data.drop 1632).take 12)
    let ct := (data.drop 1644).take 64
    match s.inUse pid with
    | none => s.finish 7 []
    | some p =>
      if p.keyCount ≤ slot then s.finish 7 []
      else if !s.alive pid || bytes64 (s.context pid).measurement != wanted then s.finish 6 []
      else match Config.kemOpen (data.take 1568) with
        | none => s.finish 6 []
        | some secret =>
          let key := gcmKey secret
          if gcmTag key nonce (wanted ++ leBytes 1 slot) ct != (data.drop 1708).take 16 then s.finish 6 []
          else
            let k : KeySlot := { state := 1, colour := p.colour, key := BitVec.ofNat 512 (leNat (gcmCrypt key nonce 0 ct)) }
            { s with keySlots := set s.keySlots (p.keyFirst + slot) k }.finish 0 []

/-- CHANNEL_RESYNC (R320, R405). -/
def execChannelResync (s : State) : Out :=
  s.command 8 [0xF, 0, 0, 0] fun args _ =>
    let n := argBits args 3 0
    let c := s.channel n
    if c.state == 0 then s.finish 7 [] else (s.setChannel n (c.request 1)).finish 0 []

/-- MIGRATE_WRAP (R411). The source's SAVE COUNTER goes on, which makes its image stale there. -/
def execMigrateWrap (s : State) : Out :=
  s.command 0xA [0x3F3F, 0, 0, 0] fun args data =>
    let pid := argBits args 5 0
    let dest := argBits args 13 8
    let report := data.take 9216
    let peerKey := (data.drop 9216).take 1568
    let c := s.context pid
    match s.inUse pid with
    | none => s.finish 7 []
    | some _ =>
      if !Config.reportSigned report || (report.drop 4448).take 64 != bytes64 (Config.sha3 peerKey) || report.getD 6 0 != 1 ||
          (report.drop (352 + 64 * dest)).take 64 != bytes64 c.measurement then s.finish 6 []
      else
        let (ct, secret) := Config.kemSend peerKey s.fresh
        let nonce : BitVec 96 := Config.freeValue (s.fresh + 1)
        let key := gcmKey secret
        let body := gcmCrypt key nonce.toNat 0 (leBytes 32 (checkpointKey c.measurement).toNat ++ leBytes 8 c.saveCounter.toNat)
        let s' := { s with fresh := s.fresh + 2 }.setContext pid { c with saveCounter := c.saveCounter + 1 }
        s'.finish 0 (fit 1568 ct ++ leBytes 12 nonce.toNat ++ body ++ gcmTag key nonce.toNat (bytes64 c.measurement) body)

/-- MIGRATE_UNWRAP (R411). The tag over the context's own measurement says that the blob is for it. -/
def execMigrateUnwrap (s : State) : Out :=
  s.command 0xB [0x3F, 0, 0, 0] fun args data =>
    let pid := argBits args 5 0
    let c := s.context pid
    let nonce := leNat ((data.drop 1568).take 12)
    let ct := (data.drop 1580).take 40
    match s.inUse pid with
    | none => s.finish 7 []
    | some _ => match Config.kemOpen (data.take 1568) with
      | none => s.finish 6 []
      | some secret =>
        let key := gcmKey secret
        let plain := gcmCrypt key nonce 0 ct
        let counter := leNat (plain.drop 32)
        if gcmTag key nonce (bytes64 c.measurement) ct != (data.drop 1620).take 16 || counter < c.saveCounter.toNat then s.finish 6 []
        else
          (s.setContext pid { c with
            importKey := some (BitVec.ofNat 256 (leNat (plain.take 32))), saveCounter := BitVec.ofNat 64 counter }).finish 0 []

/-- PAIR (R413): asked for here; it exists once the peer asks for the same. -/
def execPair (s : State) : Out :=
  s.command 0xC [0x3F3F0F, 0, 0, 0] fun args _ =>
    let port := argBits args 3 0
    let mine := argBits args 13 8
    let peer := argBits args 21 16
    match look s.ports port with
    | none => s.finish 7 []
    | some p =>
      if !p.up || (s.inUse mine).isNone || !s.alive mine then s.finish 7 []
      else { s with ports := set s.ports port { p with asked := p.asked.filter (fun (x : Nat × Nat) => x.1 != mine) ++ [(mine, peer)] } }.finish 0 []

/-! ### The scrub, reset and power (R400, R407, R415, R416) -/

/-- The allow-list that is written at entry into confidential mode (R380; log 40). -/
def freshAllowList : Store Word := (List.range 128).foldl (fun m i => put 0 m i (Config.allowWord i &&& 0x80FFFFFC)) []

/-- Posts event type 10. Its LOCATION is free: R406 names no place for it. -/
def State.postMode (s : State) : State :=
  let x : BitVec 32 := Config.freeValue s.fresh
  { s with fresh := s.fresh + 1 }.post 10 0 0 0 (x.toNat / 2 ^ 24) x.toNat

/-- What a scrub leaves (R407): as after device reset, in the mode asked for. What lies outside the device, what the security controller keeps,
and the model's own fields stay. -/
def State.scrubbed (s : State) (conf : Bool) : State :=
  { State.reset with
    confidential := conf, allowList := if conf then freshAllowList else [], hostMem := s.hostMem, linkUp := s.linkUp,
    audit := s.audit, auditCount := s.auditCount, nv := s.nv, energy := s.energy, agenda := s.agenda, fresh := s.fresh, nextId := s.nextId }

/-- The energy record is written (R400). -/
def State.persist (s : State) : State := { s with nv := { s.nv with energy := s.energy } }

/-- MODE (R407): the scrub, with the accounts persisted first. The clock, the registers of the host interface, the ports and what has been counted
toward the accounts stay; pairs end (R413; log 49). -/
def execMode (s : State) : Out :=
  s.command 9 [1, 0, 0, 0] fun args _ =>
    let t := s.persist.scrubbed (argBits args 0 0 == 1)
    let work := fun (k : Core) => ({ Core.reset with work := k.work } : Core)
    let t : State := { t with
      clk := s.clk, energyClk := s.energyClk, clkStep := s.clkStep, coolWins := s.coolWins, health := s.health, mailbox := { s.mailbox with data := [] },
      events := s.events, ports := s.ports.map fun (n, p) => (n, { p.unpair fun _ => true with asked := [] })
      tally := s.tally, cores := (s.cores.map fun (n, k) => (n, work k)).filter fun x => x.2 != Core.reset }
    t.postMode.finish 0 []

/-- DEVICE_RESET (R407, R415, R416): an orderly reset persists the accounts, which come back after it. -/
def execDeviceReset (strap : Bool) (s : State) : Out := ok (s.persist.scrubbed strap).postMode

/-- POWER_LOSS (R400): the accounts come back from the last record, with one gap more; SEQUENCE is never repeated (R402). The audit queue
is not said to survive: it does not (log 50). -/
def execPowerLoss (strap : Bool) (s : State) : Out :=
  let e := { s.nv.energy with gaps := s.nv.energy.gaps + 1, seqNo := s.energy.seqNo }
  let s : State := { s with nv := { s.nv with energy := e }, energy := e, audit := [], auditCount := 0 }
  ok (s.scrubbed strap).postMode

end Sys2Proof.Machine
end

