-- ==== Sys2Proof/Machine/PowerEvents.lean ====
section
/-! DEFINITION. Power and clock steps (01, R16, R17), the damper's windows (R335), energy accounts (R396, R397, R400), signed readings for ESIGN
(R401), and the background read of HBM (R211). -/

namespace Sys2Proof.Machine

/-- POWER_WINDOW_END (R16): power in watts and the temperatures in degrees of the window; its highest junction temperature is the greatest. -/
def execPowerWindowEnd (power : Nat) (temps : List Nat) (s : State) : Out :=
  let temp := temps.foldl max 0
  let cool := if power < 3240 && temp < 95 then min (s.coolWins + 1) 10 else 0
  let step := if 3600 < power || 105 ≤ temp then (if s.clkStep == 2 then 2 else s.clkStep + 1)
    else if s.clkStep != 0 && cool == 10 then s.clkStep - 1 else s.clkStep
  ok { s with clkStep := step, coolWins := cool, health := (power, temps) }

/-- DAMPER_WINDOW_END (R335): once for each window of 1,024 clk that has ended; the windows end at multiples of 1,024 clk (log 112). -/
def execDamperWindowEnd (core : Nat) (s : State) : Out :=
  let k := s.core core
  let n := s.clk.toNat / 1024
  if n ≤ k.dampWin then ok s
  else
    let allow := if 256 < k.score then max 4 (k.allow / 2) else if k.score < 64 then min 32 (k.allow * 2) else k.allow
    ok (s.setCore core { k with allow := allow, score := 0, dampWin := n })

/-! ### Energy (R396, R397) -/

/-- The units of 2^-32 microjoules that a component's energy adds to accounts: each account's share, and the device account what is not
attributable and what rounding leaves (log 51). Uses by colour; 256 and above name the device account. -/
def shareOut (energy : Nat) (uses : List (Nat × Nat)) : List (Nat × Nat) :=
  let total := uses.foldl (fun n x => n + x.2) 0
  let mine := uses.filter fun x => decide (x.1 < 256)
  let xs := if total = 0 then [] else mine.map fun (k, u) => (k, energy * u / total)
  (256, energy - xs.foldl (fun n x => n + x.2) 0) :: xs

/-- What every core has counted since the last reconciliation, each entry event * 256 + colour, weighed by its event (R396). -/
def State.coreUse (s : State) (weigh : Nat → Nat) (colour : Nat) : Nat :=
  s.cores.foldl (fun n (_, k) => (k.work.filter fun x => x.1 % 256 == colour).foldl (fun n x => n + x.2 * weigh (x.1 / 256)) n) 0

/-- The clk since the last reconciliation. -/
def State.windowClk (s : State) : Nat := (s.clk - s.energyClk).toNat

/-- What a component's energy is shared by, in the order of R396's table: each colour's use, and the device account's. Energy of cores that
no context occupies, and of LINE QUOTA that no partition holds, is the device account's. -/
def State.usesOf (s : State) (component device : Nat) : List (Nat × Nat) :=
  let colours := List.range 256
  let by_ := fun (f : Nat → Nat) => (colours.map fun c => (c, f c)).filter fun x => x.2 != 0
  let quota := fun c => (s.parts.filter fun (_, p) => p.inUse && p.colour.toNat == c).foldl (fun n x => n + x.2.lineQuota) 0
  let held := fun c => s.coreUse (fun e => if e == 1 then 1 else 0) c
  let sum := fun (f : Nat → Nat) => colours.foldl (fun n c => n + f c) 0
  match component with
  | 0 => (256, device) :: by_ (s.coreUse Config.eventEnergy)
  | 1 => (256, device + (512 * s.windowClk - sum held)) :: by_ held
  | 3 => (256, device + (2097152 - sum quota)) :: by_ quota
  | n => (256, device) :: by_ fun c => lookD 0 s.tally (n * 256 + c)

/-- Adds units to an account: whole microjoules move into the count, which stops at its greatest value (R395, R397). -/
def Energy.add (e : Energy) (account units : Nat) : Energy :=
  let sum := (lookD 0 e.fracs account).toNat + units
  let count := (lookD 0 e.counts account).toNat + sum / 2 ^ 32
  { e with fracs := put 0 e.fracs account (BitVec.ofNat 32 sum), counts := put 0 e.counts account (BitVec.ofNat 64 (min count (2 ^ 64 - 1))) }

/-- The shares of every component of a measurement. -/
def State.shares (s : State) (m : Measurement) : List (Nat × Nat) :=
  m.components.zipIdx.flatMap fun (c, i) => shareOut c.energy (s.usesOf i c.device)

/-- ENERGY_RECONCILIATION (R397): every account and WINDOW change in one step, and what was counted for them starts anew. -/
def execEnergyReconciliation (m : Measurement) (s : State) : Out :=
  let e := (s.shares m).foldl (fun e (k, u) => e.add k u) s.energy
  ok { s with
    energy := { e with window := e.window + 1 }
    cores := (s.cores.map fun (n, k) => (n, { k with work := [] })).filter fun x => x.2 != Core.reset
    tally := [], energyClk := s.clk }

/-- ENERGY_PERSIST (R400). -/
def execEnergyPersist (s : State) : Out := ok s.persist

/-! ### Signed readings (R401) -/

/-- Writes a signed reading as plain stores, a line at a time. -/
def State.writeReading (s : State) (r : Req) (bs : List Byte) : State :=
  (List.range 38).foldl (fun s i => s.performWrite { r with addr := r.addr + 128 * i } ((bs.drop (128 * i)).take 128)) s

/-- SIGNED_READING_WRITE (R401): the oldest request of the device, if it is the split's. -/
def execSignedReadingWrite (gid e : Nat) (s : State) : Out :=
  match s.reqs.find? fun (_, r) => r.acc == .sign && (r.stage == .sent || r.stage == .page) with
  | none => ok s
  | some (id, r) => match (s.gang gid).bind fun g => look g.splits e with
    | none => ok s
    | some sp =>
      if r.gang != gid || sp.run != .busy || sp.mask &&& r.mask == 0 then ok s
      else match s.reach r.core r.part r.cap.colour r.cap.gen true r.addr r.size with
        | .fail cause addr => ok (s.reject id r cause addr)
        | .wait s' => ok (s'.setStage id .page)
        | .ok =>
          let colour := ((s.part r.part).map (·.colour.toNat)).getD 0
          let (s, bs) := s.reading colour
          ok (((s.writeReading r bs).dropReq id).unhold gid r.mask)

/-! ### The background read (R211) -/

/-- HBM_BACKGROUND_READ (R211, R212, R213): the ECC words that were corrected and those that could not be. -/
def execHbmBackgroundRead (ces ues : List Nat) (s : State) : Out :=
  let words := 0x6000000000 / 32
  let s := (ces.filter fun u => decide (u < words)).foldl (fun s u => s.softCount (128 + stackOf (u * 32))) s
  ok ((ues.filter fun u => decide (u < words)).foldl (fun s u => if lookD false s.poison u then s else s.poisonWord u) s)

end Sys2Proof.Machine
end

