-- ==== Sys2Proof/Machine/System.lean ====
section
/-! DEFINITION. Control registers (03, R67 to R71) and PSNAP (20, R393). -/

namespace Sys2Proof.Machine

/-- Whether an index is listed (R68). -/
def crListed (i : Nat) : Bool :=
  i ≤ 6 || (8 ≤ i && i ≤ 0xC) || (0x20 ≤ i && i ≤ 0x2F) || (0x40 ≤ i && i ≤ 0x47) || (0x100 ≤ i && i ≤ 0x108) ||
    (0x120 ≤ i && i ≤ 0x12F) || (0x130 ≤ i && i ≤ 0x132) || i == 0x201 || i == 0x202 || i == 0x210 || i == 0x220

/-- Which reads are slow (R68). -/
def crSlow (i : Nat) : Bool := i == 8 || i == 0xA || i == 0x130 || i == 0x131 || i == 0x210

/-- The lowest mode that reaches an index (R67). -/
def crMode (i : Nat) : Mode := if i ≤ 0xFF then .u else if i ≤ 0x1FF then .s else .h

/-- The lowest mode that may write a register; none when no mode may (R68). -/
def crWriter (i : Nat) : Option Mode :=
  if i == 0xB then some .u
  else if (0x20 ≤ i && i ≤ 0x2F) || i == 0x101 || (0x120 ≤ i && i ≤ 0x12F) then some .s
  else if i == 0x103 || i == 0x107 || i == 0x201 || i == 0x210 then some .h
  else none

/-- The revolution counter (R279). -/
def State.rev (s : State) : Word := BitVec.ofNat 32 (s.clk.toNat / 128)

/-- The energy account of the partition's colour in microjoules (R395). -/
def Ctx.energy (c : Ctx) : BitVec 64 := lookD 0 c.s.energy.counts c.part.colour.toNat

/-- The value of a listed control register as a lane sees it (R68). -/
def Ctx.cr (c : Ctx) (i lane : Nat) : Word :=
  let n := BitVec.ofNat 32
  let k := c.s.core c.core
  let compat := c.blk.hdr.compat
  if 0x20 ≤ i && i ≤ 0x2F then lookD 0 k.perf (c.pid * 16 + (i - 0x20))
  else if 0x40 ≤ i && i ≤ 0x47 then (if i - 0x40 < c.blk.hdr.tiles then lookD 0 c.blk.tcfg (i - 0x40) else 0)
  else if 0x120 ≤ i && i ≤ 0x12F then n (lookD 0 k.perfsel (c.pid * 16 + (i - 0x120))).toNat
  else match i with
    | 0x000 => n (c.id lane)
    | 0x001 => n (if compat then 2 * c.g.index + lane / 16 else c.g.index)
    | 0x002 => n c.blk.number
    | 0x003 => n (if compat then 2 * c.blk.hdr.gangs else c.blk.hdr.gangs)
    | 0x004 => n c.blk.blockCount
    | 0x005 => n (c.core / 64)
    | 0x006 => n c.core
    | 0x008 => c.s.clk.extractLsb' 0 32
    | 0x009 => c.g.clkHi
    | 0x00A => c.s.rev
    | 0x00B => if c.blk.accstat then 1 else 0
    | 0x00C => if compat then 2 else 3
    | 0x100 => n ((if c.s.confidential then 8 else 0) + (if compat then 4 else 0) + modeBits c.sp.mode)
    | 0x101 => c.part.tvec
    | 0x102 => n c.sp.depth
    | 0x103 => c.part.savebase
    | 0x104 => n c.part.colour.toNat
    | 0x105 => n (c.part.keyCount * 256 + c.part.keyFirst)
    | 0x106 => n (lookD 0 k.ctxgen c.g.seat).toNat
    | 0x107 => lookD 0 k.sliceclk c.pid
    | 0x108 => c.part.slicelen
    | 0x130 => c.s.sweepPass
    | 0x131 => c.energy.extractLsb' 0 32
    | 0x132 => c.g.enHi
    | 0x201 => c.s.htvec
    | 0x202 => n c.pid
    | 0x210 => k.softerr
    | 0x220 => n c.s.clkStep.toNat
    | _ => 0

/-- What a low-half read latches for the gang (R69). -/
def Ctx.latch (c : Ctx) (i : Nat) (s : State) : State :=
  { s with gangs := modify s.gangs c.gid fun g =>
      if i == 8 then { g with clkHi := c.s.clk.extractLsb' 32 32 }
      else if i == 0x131 then { g with enHi := c.energy.extractLsb' 32 32 } else g }

/-- MFCR (R67, R163). A slow read empties its destination, which fills when the value of this clk arrives (R57). -/
def execMfcr (idx : BitVec 12) (toS : Bool) (b : Reg) (s : State) : Out :=
  let i := idx.toNat
  issue s { priv := crMode i, wf := 0x300 ≤ i || crListed i,
            dsts := if 0x300 ≤ i then [] else if toS then [.s b.toNat 1] else [.v b.toNat 1] } fun c =>
    if 0x300 ≤ i then .trap 33 0 0
    else
      let s := c.latch i c.s
      if crSlow i then
        if toS then
          let (s, inst) := s.newId
          let s := { s with gangs := modify s.gangs c.gid fun g => g.emptyS (c.sk b.toNat) }
          .done (s.send { c.req inst 32 .onCore 0 4 Cap.null [.s (c.sk b.toNat)] with
            stage := .replied [c.cr i (lowest c.active)] false, acq := false }) []
        else
          .done (c.sendLanes s (lanesOf c.live) [c.vk b.toNat] fun inst l =>
            { c.req inst l .onCore 0 4 Cap.null [.v (c.vk b.toNat)] with stage := .replied [c.cr i l] false, acq := false }) []
      else
        .done { s with gangs := modify s.gangs c.gid fun g =>
          if toS then g.setS (c.sk b.toNat) (c.cr i (lowest c.active)) else g.setVs (c.vk b.toNat) (lanesOf c.live) (c.cr i) } []

/-- Whether a value has no non-zero reserved bit for a register (R67, R391). -/
def crValueOk (i : Nat) (x : Word) : Bool :=
  if i == 0xB then x.toNat ≤ 1
  else if 0x120 ≤ i && i ≤ 0x12F then x.toNat ≤ 0x11
  else if i == 0x101 || i == 0x201 then !x.getLsbD 0
  else true

/-- The write of a control register (R68, R70, R391). -/
def Ctx.writeCr (c : Ctx) (i : Nat) (x : Word) : State :=
  let k := c.s.core c.core
  if 0x20 ≤ i && i ≤ 0x2F then
    let n := c.pid * 16 + (i - 0x20)
    c.s.setCore c.core { k with perf := put 0 k.perf n x, wrote := n :: k.wrote }
  else if 0x120 ≤ i && i ≤ 0x12F then
    c.s.setCore c.core { k with perfsel := put 0 k.perfsel (c.pid * 16 + (i - 0x120)) (x.extractLsb' 0 8) }
  else match i with
    | 0x00B => if x == 0 then { c.s with blocks := modify c.s.blocks c.g.block fun b => { b with accstat := false } } else c.s
    | 0x101 => c.s.setPart c.pid { c.part with tvec := x }
    | 0x103 => c.s.setPart c.pid { c.part with savebase := x }
    | 0x107 => c.s.setCore c.core { k with sliceclk := put 0 k.sliceclk c.pid x }
    | 0x201 => { c.s with htvec := x }
    | 0x210 => c.s.setCore c.core { k with softerr := x }
    | _ => c.s

/-- MTCR (R67, R163). -/
def execMtcr (idx : BitVec 12) (a : Reg) (s : State) : Out :=
  let i := idx.toNat
  let priv := match crWriter i with
    | some m => if modeRank m < modeRank (crMode i) then crMode i else m
    | none => crMode i
  issue s { priv := priv, wf := 0x300 ≤ i || (crWriter i).isSome, srcs := if 0x300 ≤ i then [] else [.s a.toNat 1 false] } fun c =>
    if 0x300 ≤ i then .trap 33 0 0
    else if !crValueOk i (c.sv a.toNat) then .trap 32 0 0
    else .done (c.writeCr i (c.sv a.toNat)) []

/-- PSNAP (R393): PERF0 to PERF15 as they stand at one clk. -/
def execPsnap (b : Reg) (s : State) : Out :=
  issue s { wf := b == 0 || b == 16 || b == 32, dsts := [.s b.toNat 16] } fun c =>
    c.gangDone fun g => (List.range 16).foldl (fun g i => g.setS (c.sk (b.toNat + i)) (c.cr (0x20 + i) 0)) g

end Sys2Proof.Machine
end

