-- ==== Sys2Proof/Machine/Dispatch.lean ====
section
/-! DEFINITION. The dispatch: one arm per constructor of Instr, each one direct call of that instruction's meaning. -/

namespace Sys2Proof.Machine

def exec (i : Instr) (s : State) : Host.Outcome State Fault Refusal :=
  match i with
  | .iadd pb pa b a d => Sys2Proof.Machine.execIadd pb pa b a d s
  | .isub pb pa b a d => Sys2Proof.Machine.execIsub pb pa b a d s
  | .imul pb pa b a d => Sys2Proof.Machine.execImul pb pa b a d s
  | .imulhI32 pb pa b a d => Sys2Proof.Machine.execImulhI32 pb pa b a d s
  | .imulhN32 pb pa b a d => Sys2Proof.Machine.execImulhN32 pb pa b a d s
  | .iminI32 pb pa b a d => Sys2Proof.Machine.execIminI32 pb pa b a d s
  | .iminN32 pb pa b a d => Sys2Proof.Machine.execIminN32 pb pa b a d s
  | .imaxI32 pb pa b a d => Sys2Proof.Machine.execImaxI32 pb pa b a d s
  | .imaxN32 pb pa b a d => Sys2Proof.Machine.execImaxN32 pb pa b a d s
  | .iabsI32 pa a d => Sys2Proof.Machine.execIabsI32 pa a d s
  | .iaddsI32 pb pa b a d => Sys2Proof.Machine.execIaddsI32 pb pa b a d s
  | .isubsI32 pb pa b a d => Sys2Proof.Machine.execIsubsI32 pb pa b a d s
  | .iaddsN32 pb pa b a d => Sys2Proof.Machine.execIaddsN32 pb pa b a d s
  | .isubsN32 pb pa b a d => Sys2Proof.Machine.execIsubsN32 pb pa b a d s
  | .and_ pb pa b a d => Sys2Proof.Machine.execAnd pb pa b a d s
  | .or_ pb pa b a d => Sys2Proof.Machine.execOr pb pa b a d s
  | .xor_ pb pa b a d => Sys2Proof.Machine.execXor pb pa b a d s
  | .andn pb pa b a d => Sys2Proof.Machine.execAndn pb pa b a d s
  | .shl pb pa b a d => Sys2Proof.Machine.execShl pb pa b a d s
  | .shr pb pa b a d => Sys2Proof.Machine.execShr pb pa b a d s
  | .sar pb pa b a d => Sys2Proof.Machine.execSar pb pa b a d s
  | .rol pb pa b a d => Sys2Proof.Machine.execRol pb pa b a d s
  | .popc pa a d => Sys2Proof.Machine.execPopc pa a d s
  | .clz pa a d => Sys2Proof.Machine.execClz pa a d s
  | .brev pa a d => Sys2Proof.Machine.execBrev pa a d s
  | .icmpEq pb pa b a d => Sys2Proof.Machine.execIcmpEq pb pa b a d s
  | .icmpNe pb pa b a d => Sys2Proof.Machine.execIcmpNe pb pa b a d s
  | .icmpLtI32 pb pa b a d => Sys2Proof.Machine.execIcmpLtI32 pb pa b a d s
  | .icmpLeI32 pb pa b a d => Sys2Proof.Machine.execIcmpLeI32 pb pa b a d s
  | .icmpLtN32 pb pa b a d => Sys2Proof.Machine.execIcmpLtN32 pb pa b a d s
  | .icmpLeN32 pb pa b a d => Sys2Proof.Machine.execIcmpLeN32 pb pa b a d s
  | .fcmpEq pb pa b a d => Sys2Proof.Machine.execFcmpEq pb pa b a d s
  | .fcmpNe pb pa b a d => Sys2Proof.Machine.execFcmpNe pb pa b a d s
  | .fcmpLt pb pa b a d => Sys2Proof.Machine.execFcmpLt pb pa b a d s
  | .fcmpLe pb pa b a d => Sys2Proof.Machine.execFcmpLe pb pa b a d s
  | .fcmpUn pb pa b a d => Sys2Proof.Machine.execFcmpUn pb pa b a d s
  | .sel p pb pa b a d => Sys2Proof.Machine.execSel p pb pa b a d s
  | .selN p pb pa b a d => Sys2Proof.Machine.execSelN p pb pa b a d s
  | .imad c b a d => Sys2Proof.Machine.execImad c b a d s
  | .bfi c b a d => Sys2Proof.Machine.execBfi c b a d s
  | .bfeN32 b a d => Sys2Proof.Machine.execBfeN32 b a d s
  | .bfeI32 b a d => Sys2Proof.Machine.execBfeI32 b a d s
  | .iaddI64 pb pa b a d => Sys2Proof.Machine.execIaddI64 pb pa b a d s
  | .isubI64 pb pa b a d => Sys2Proof.Machine.execIsubI64 pb pa b a d s
  | .shlI64 pb pa b a d => Sys2Proof.Machine.execShlI64 pb pa b a d s
  | .shrN64 pb pa b a d => Sys2Proof.Machine.execShrN64 pb pa b a d s
  | .sarI64 pb pa b a d => Sys2Proof.Machine.execSarI64 pb pa b a d s
  | .imulwI32 pb pa b a d => Sys2Proof.Machine.execImulwI32 pb pa b a d s
  | .imulwN32 pb pa b a d => Sys2Proof.Machine.execImulwN32 pb pa b a d s
  | .iminI64 pb pa b a d => Sys2Proof.Machine.execIminI64 pb pa b a d s
  | .imaxI64 pb pa b a d => Sys2Proof.Machine.execImaxI64 pb pa b a d s
  | .iaddi imm pa a d => Sys2Proof.Machine.execIaddi imm pa a d s
  | .andi imm pa a d => Sys2Proof.Machine.execAndi imm pa a d s
  | .ori imm pa a d => Sys2Proof.Machine.execOri imm pa a d s
  | .xori imm pa a d => Sys2Proof.Machine.execXori imm pa a d s
  | .shli n pa a d => Sys2Proof.Machine.execShli n pa a d s
  | .shri n pa a d => Sys2Proof.Machine.execShri n pa a d s
  | .sari n pa a d => Sys2Proof.Machine.execSari n pa a d s
  | .movi imm d => Sys2Proof.Machine.execMovi imm d s
  | .sloi imm pa a d => Sys2Proof.Machine.execSloi imm pa a d s
  | .imuli imm pa a d => Sys2Proof.Machine.execImuli imm pa a d s
  | .mov pa a d => Sys2Proof.Machine.execMov pa a d s
  | .sextI8 pa a d => Sys2Proof.Machine.execSextI8 pa a d s
  | .sextI16 pa a d => Sys2Proof.Machine.execSextI16 pa a d s
  | .zextN8 pa a d => Sys2Proof.Machine.execZextN8 pa a d s
  | .zextN16 pa a d => Sys2Proof.Machine.execZextN16 pa a d s
  | .fadd pb pa b a d => Sys2Proof.Machine.execFadd pb pa b a d s
  | .fsub pb pa b a d => Sys2Proof.Machine.execFsub pb pa b a d s
  | .fmul pb pa b a d => Sys2Proof.Machine.execFmul pb pa b a d s
  | .fmin pb pa b a d => Sys2Proof.Machine.execFmin pb pa b a d s
  | .fmax pb pa b a d => Sys2Proof.Machine.execFmax pb pa b a d s
  | .fdiv pb pa b a d => Sys2Proof.Machine.execFdiv pb pa b a d s
  | .fabs pa a d => Sys2Proof.Machine.execFabs pa a d s
  | .fneg pa a d => Sys2Proof.Machine.execFneg pa a d s
  | .fsqrt pa a d => Sys2Proof.Machine.execFsqrt pa a d s
  | .frcp pa a d => Sys2Proof.Machine.execFrcp pa a d s
  | .frsq pa a d => Sys2Proof.Machine.execFrsq pa a d s
  | .fexp2 pa a d => Sys2Proof.Machine.execFexp2 pa a d s
  | .flog2 pa a d => Sys2Proof.Machine.execFlog2 pa a d s
  | .fsin pa a d => Sys2Proof.Machine.execFsin pa a d s
  | .fcos pa a d => Sys2Proof.Machine.execFcos pa a d s
  | .fmaF32 c b a d => Sys2Proof.Machine.execFmaF32 c b a d s
  | .haddF16 pb pa b a d => Sys2Proof.Machine.execHaddF16 pb pa b a d s
  | .hsubF16 pb pa b a d => Sys2Proof.Machine.execHsubF16 pb pa b a d s
  | .hmulF16 pb pa b a d => Sys2Proof.Machine.execHmulF16 pb pa b a d s
  | .hminF16 pb pa b a d => Sys2Proof.Machine.execHminF16 pb pa b a d s
  | .hmaxF16 pb pa b a d => Sys2Proof.Machine.execHmaxF16 pb pa b a d s
  | .haddBf16 pb pa b a d => Sys2Proof.Machine.execHaddBf16 pb pa b a d s
  | .hsubBf16 pb pa b a d => Sys2Proof.Machine.execHsubBf16 pb pa b a d s
  | .hmulBf16 pb pa b a d => Sys2Proof.Machine.execHmulBf16 pb pa b a d s
  | .hminBf16 pb pa b a d => Sys2Proof.Machine.execHminBf16 pb pa b a d s
  | .hmaxBf16 pb pa b a d => Sys2Proof.Machine.execHmaxBf16 pb pa b a d s
  | .hfmaF16 c b a d => Sys2Proof.Machine.execHfmaF16 c b a d s
  | .hfmaBf16 c b a d => Sys2Proof.Machine.execHfmaBf16 c b a d s
  | .cvtF32I32 pa a d => Sys2Proof.Machine.execCvtF32I32 pa a d s
  | .cvtF32N32 pa a d => Sys2Proof.Machine.execCvtF32N32 pa a d s
  | .cvtI32F32 pa a d => Sys2Proof.Machine.execCvtI32F32 pa a d s
  | .cvtN32F32 pa a d => Sys2Proof.Machine.execCvtN32F32 pa a d s
  | .cvtF16F32 pa a d => Sys2Proof.Machine.execCvtF16F32 pa a d s
  | .cvtBf16F32 pa a d => Sys2Proof.Machine.execCvtBf16F32 pa a d s
  | .cvtF32F16 pa a d => Sys2Proof.Machine.execCvtF32F16 pa a d s
  | .cvtF32Bf16 pa a d => Sys2Proof.Machine.execCvtF32Bf16 pa a d s
  | .frnd pa a d => Sys2Proof.Machine.execFrnd pa a d s
  | .quantSb7 pa a d => Sys2Proof.Machine.execQuantSb7 pa a d s
  | .quantSb4 pa a d => Sys2Proof.Machine.execQuantSb4 pa a d s
  | .quantSb2 pa a d => Sys2Proof.Machine.execQuantSb2 pa a d s
  | .deqSb7 pb pa b a d => Sys2Proof.Machine.execDeqSb7 pb pa b a d s
  | .deqSb4 pb pa b a d => Sys2Proof.Machine.execDeqSb4 pb pa b a d s
  | .deqSb2 pb pa b a d => Sys2Proof.Machine.execDeqSb2 pb pa b a d s
  | .kand kb ka kd => Sys2Proof.Machine.execKand kb ka kd s
  | .kor kb ka kd => Sys2Proof.Machine.execKor kb ka kd s
  | .kxor kb ka kd => Sys2Proof.Machine.execKxor kb ka kd s
  | .kandn kb ka kd => Sys2Proof.Machine.execKandn kb ka kd s
  | .knot ka kd => Sys2Proof.Machine.execKnot ka kd s
  | .lsel pb pa b a d => Sys2Proof.Machine.execLsel pb pa b a d s
  | .lstep pb pa b a d => Sys2Proof.Machine.execLstep pb pa b a d s
  | .lstepW pb pa b a d => Sys2Proof.Machine.execLstepW pb pa b a d s
  | .lmirror pb pa b a d => Sys2Proof.Machine.execLmirror pb pa b a d s
  | .kmask a d => Sys2Proof.Machine.execKmask a d s
  | .kcount a d => Sys2Proof.Machine.execKcount a d s
  | .krank a d => Sys2Proof.Machine.execKrank a d s
  | .lkin pa a d => Sys2Proof.Machine.execLkin pa a d s
  | .lfoldAdd pa a d => Sys2Proof.Machine.execLfoldAdd pa a d s
  | .lfoldMinI32 pa a d => Sys2Proof.Machine.execLfoldMinI32 pa a d s
  | .lfoldMaxI32 pa a d => Sys2Proof.Machine.execLfoldMaxI32 pa a d s
  | .lfoldAnd pa a d => Sys2Proof.Machine.execLfoldAnd pa a d s
  | .lfoldOr pa a d => Sys2Proof.Machine.execLfoldOr pa a d s
  | .lfoldXor pa a d => Sys2Proof.Machine.execLfoldXor pa a d s
  | .lfoldMinN32 pa a d => Sys2Proof.Machine.execLfoldMinN32 pa a d s
  | .lfoldMaxN32 pa a d => Sys2Proof.Machine.execLfoldMaxN32 pa a d s
  | .exit_ => Sys2Proof.Machine.execExit s
  | .yield => Sys2Proof.Machine.execYield s
  | .jmpr a => Sys2Proof.Machine.execJmpr a s
  | .join n => Sys2Proof.Machine.execJoin n s
  | .brt disp k => Sys2Proof.Machine.execBrt disp k s
  | .brf disp k => Sys2Proof.Machine.execBrf disp k s
  | .call disp => Sys2Proof.Machine.execCall disp s
  | .siadd pb pa b a d => Sys2Proof.Machine.execSiadd pb pa b a d s
  | .sisub pb pa b a d => Sys2Proof.Machine.execSisub pb pa b a d s
  | .simul pb pa b a d => Sys2Proof.Machine.execSimul pb pa b a d s
  | .simulhI32 pb pa b a d => Sys2Proof.Machine.execSimulhI32 pb pa b a d s
  | .simulhN32 pb pa b a d => Sys2Proof.Machine.execSimulhN32 pb pa b a d s
  | .siminI32 pb pa b a d => Sys2Proof.Machine.execSiminI32 pb pa b a d s
  | .siminN32 pb pa b a d => Sys2Proof.Machine.execSiminN32 pb pa b a d s
  | .simaxI32 pb pa b a d => Sys2Proof.Machine.execSimaxI32 pb pa b a d s
  | .simaxN32 pb pa b a d => Sys2Proof.Machine.execSimaxN32 pb pa b a d s
  | .siabsI32 pa a d => Sys2Proof.Machine.execSiabsI32 pa a d s
  | .siaddsI32 pb pa b a d => Sys2Proof.Machine.execSiaddsI32 pb pa b a d s
  | .sisubsI32 pb pa b a d => Sys2Proof.Machine.execSisubsI32 pb pa b a d s
  | .siaddsN32 pb pa b a d => Sys2Proof.Machine.execSiaddsN32 pb pa b a d s
  | .sisubsN32 pb pa b a d => Sys2Proof.Machine.execSisubsN32 pb pa b a d s
  | .sand pb pa b a d => Sys2Proof.Machine.execSand pb pa b a d s
  | .sor pb pa b a d => Sys2Proof.Machine.execSor pb pa b a d s
  | .sxor pb pa b a d => Sys2Proof.Machine.execSxor pb pa b a d s
  | .sandn pb pa b a d => Sys2Proof.Machine.execSandn pb pa b a d s
  | .sshl pb pa b a d => Sys2Proof.Machine.execSshl pb pa b a d s
  | .sshr pb pa b a d => Sys2Proof.Machine.execSshr pb pa b a d s
  | .ssar pb pa b a d => Sys2Proof.Machine.execSsar pb pa b a d s
  | .srol pb pa b a d => Sys2Proof.Machine.execSrol pb pa b a d s
  | .spopc pa a d => Sys2Proof.Machine.execSpopc pa a d s
  | .sclz pa a d => Sys2Proof.Machine.execSclz pa a d s
  | .sbrev pa a d => Sys2Proof.Machine.execSbrev pa a d s
  | .scmpEq pb pa b a d => Sys2Proof.Machine.execScmpEq pb pa b a d s
  | .scmpNe pb pa b a d => Sys2Proof.Machine.execScmpNe pb pa b a d s
  | .scmpLtI32 pb pa b a d => Sys2Proof.Machine.execScmpLtI32 pb pa b a d s
  | .scmpLeI32 pb pa b a d => Sys2Proof.Machine.execScmpLeI32 pb pa b a d s
  | .scmpLtN32 pb pa b a d => Sys2Proof.Machine.execScmpLtN32 pb pa b a d s
  | .scmpLeN32 pb pa b a d => Sys2Proof.Machine.execScmpLeN32 pb pa b a d s
  | .siaddi imm pa a d => Sys2Proof.Machine.execSiaddi imm pa a d s
  | .smovi imm d => Sys2Proof.Machine.execSmovi imm d s
  | .ssloi imm pa a d => Sys2Proof.Machine.execSsloi imm pa a d s
  | .simad c b a d => Sys2Proof.Machine.execSimad c b a d s
  | .ldu32 po disp base o d => Sys2Proof.Machine.execLdu32 po disp base o d s
  | .movVs a b => Sys2Proof.Machine.execMovVs a b s
  | .movSv a b => Sys2Proof.Machine.execMovSv a b s
  | .rdlane n a b => Sys2Proof.Machine.execRdlane n a b s
  | .iaddShort imm src d => Sys2Proof.Machine.execIaddShort imm src d s
  | .isubShort imm src d => Sys2Proof.Machine.execIsubShort imm src d s
  | .imulShort imm src d => Sys2Proof.Machine.execImulShort imm src d s
  | .andShort imm src d => Sys2Proof.Machine.execAndShort imm src d s
  | .orShort imm src d => Sys2Proof.Machine.execOrShort imm src d s
  | .xorShort imm src d => Sys2Proof.Machine.execXorShort imm src d s
  | .shlShort imm src d => Sys2Proof.Machine.execShlShort imm src d s
  | .shrShort imm src d => Sys2Proof.Machine.execShrShort imm src d s
  | .sarShort imm src d => Sys2Proof.Machine.execSarShort imm src d s
  | .movShort src d => Sys2Proof.Machine.execMovShort src d s
  | .moviShort src d => Sys2Proof.Machine.execMoviShort src d s
  | .iminShort imm src d => Sys2Proof.Machine.execIminShort imm src d s
  | .imaxShort imm src d => Sys2Proof.Machine.execImaxShort imm src d s
  | .faddShort src d => Sys2Proof.Machine.execFaddShort src d s
  | .fsubShort src d => Sys2Proof.Machine.execFsubShort src d s
  | .fmulShort src d => Sys2Proof.Machine.execFmulShort src d s
  | .fmaxShort src d => Sys2Proof.Machine.execFmaxShort src d s
  | .cmov a b => Sys2Proof.Machine.execCmov a b s
  | .csetb x a b => Sys2Proof.Machine.execCsetb x a b s
  | .candp x a b => Sys2Proof.Machine.execCandp x a b s
  | .cseal x a b => Sys2Proof.Machine.execCseal x a b s
  | .cunseal a b => Sys2Proof.Machine.execCunseal a b s
  | .cdeleg x a b => Sys2Proof.Machine.execCdeleg x a b s
  | .croot x b => Sys2Proof.Machine.execCroot x b s
  | .cgetBase a b => Sys2Proof.Machine.execCgetBase a b s
  | .cgetLen a b => Sys2Proof.Machine.execCgetLen a b s
  | .cgetPerm a b => Sys2Proof.Machine.execCgetPerm a b s
  | .cgetType a b => Sys2Proof.Machine.execCgetType a b s
  | .cgetTag a b => Sys2Proof.Machine.execCgetTag a b s
  | .cgetColour a b => Sys2Proof.Machine.execCgetColour a b s
  | .cgetGen a b => Sys2Proof.Machine.execCgetGen a b s
  | .cclrtag a b => Sys2Proof.Machine.execCclrtag a b s
  | .ctoq a b => Sys2Proof.Machine.execCtoq a b s
  | .cfromq a b => Sys2Proof.Machine.execCfromq a b s
  | .ccover x a b => Sys2Proof.Machine.execCcover x a b s
  | .ld32 po disp base o d => Sys2Proof.Machine.execLd32 po disp base o d s
  | .ld64 po disp base o d => Sys2Proof.Machine.execLd64 po disp base o d s
  | .ld128 po disp base o d => Sys2Proof.Machine.execLd128 po disp base o d s
  | .st32 po disp base o d => Sys2Proof.Machine.execSt32 po disp base o d s
  | .st64 po disp base o d => Sys2Proof.Machine.execSt64 po disp base o d s
  | .st128 po disp base o d => Sys2Proof.Machine.execSt128 po disp base o d s
  | .ld32Quad po disp base o d => Sys2Proof.Machine.execLd32Quad po disp base o d s
  | .st32Quad po disp base o d => Sys2Proof.Machine.execSt32Quad po disp base o d s
  | .cld po disp base o d => Sys2Proof.Machine.execCld po disp base o d s
  | .cst po disp base o d => Sys2Proof.Machine.execCst po disp base o d s
  | .lds32 po disp win o d => Sys2Proof.Machine.execLds32 po disp win o d s
  | .sts32 po disp win o d => Sys2Proof.Machine.execSts32 po disp win o d s
  | .ldN8 c a b => Sys2Proof.Machine.execLdN8 c a b s
  | .ldI8 c a b => Sys2Proof.Machine.execLdI8 c a b s
  | .ldN16 c a b => Sys2Proof.Machine.execLdN16 c a b s
  | .ldI16 c a b => Sys2Proof.Machine.execLdI16 c a b s
  | .st8 c a b => Sys2Proof.Machine.execSt8 c a b s
  | .st16 c a b => Sys2Proof.Machine.execSt16 c a b s
  | .ldN8Quad c a b => Sys2Proof.Machine.execLdN8Quad c a b s
  | .ldI8Quad c a b => Sys2Proof.Machine.execLdI8Quad c a b s
  | .ldN16Quad c a b => Sys2Proof.Machine.execLdN16Quad c a b s
  | .ldI16Quad c a b => Sys2Proof.Machine.execLdI16Quad c a b s
  | .st8Quad c a b => Sys2Proof.Machine.execSt8Quad c a b s
  | .st16Quad c a b => Sys2Proof.Machine.execSt16Quad c a b s
  | .ld64Quad c a b => Sys2Proof.Machine.execLd64Quad c a b s
  | .st64Quad c a b => Sys2Proof.Machine.execSt64Quad c a b s
  | .ld128Quad c a b => Sys2Proof.Machine.execLd128Quad c a b s
  | .st128Quad c a b => Sys2Proof.Machine.execSt128Quad c a b s
  | .atomAdd c a b => Sys2Proof.Machine.execAtomAdd c a b s
  | .atomMinI32 c a b => Sys2Proof.Machine.execAtomMinI32 c a b s
  | .atomMaxI32 c a b => Sys2Proof.Machine.execAtomMaxI32 c a b s
  | .atomMinN32 c a b => Sys2Proof.Machine.execAtomMinN32 c a b s
  | .atomMaxN32 c a b => Sys2Proof.Machine.execAtomMaxN32 c a b s
  | .atomAnd c a b => Sys2Proof.Machine.execAtomAnd c a b s
  | .atomOr c a b => Sys2Proof.Machine.execAtomOr c a b s
  | .atomXor c a b => Sys2Proof.Machine.execAtomXor c a b s
  | .atomSwap c a b => Sys2Proof.Machine.execAtomSwap c a b s
  | .atomCas c a b => Sys2Proof.Machine.execAtomCas c a b s
  | .atomAddF32 c a b => Sys2Proof.Machine.execAtomAddF32 c a b s
  | .redAdd c a b => Sys2Proof.Machine.execRedAdd c a b s
  | .redMinI32 c a b => Sys2Proof.Machine.execRedMinI32 c a b s
  | .redMaxI32 c a b => Sys2Proof.Machine.execRedMaxI32 c a b s
  | .redMinN32 c a b => Sys2Proof.Machine.execRedMinN32 c a b s
  | .redMaxN32 c a b => Sys2Proof.Machine.execRedMaxN32 c a b s
  | .redAnd c a b => Sys2Proof.Machine.execRedAnd c a b s
  | .redOr c a b => Sys2Proof.Machine.execRedOr c a b s
  | .redXor c a b => Sys2Proof.Machine.execRedXor c a b s
  | .redAddF32 c a b => Sys2Proof.Machine.execRedAddF32 c a b s
  | .atomsAdd win a b => Sys2Proof.Machine.execAtomsAdd win a b s
  | .atomsMinI32 win a b => Sys2Proof.Machine.execAtomsMinI32 win a b s
  | .atomsMaxI32 win a b => Sys2Proof.Machine.execAtomsMaxI32 win a b s
  | .atomsMinN32 win a b => Sys2Proof.Machine.execAtomsMinN32 win a b s
  | .atomsMaxN32 win a b => Sys2Proof.Machine.execAtomsMaxN32 win a b s
  | .atomsAnd win a b => Sys2Proof.Machine.execAtomsAnd win a b s
  | .atomsOr win a b => Sys2Proof.Machine.execAtomsOr win a b s
  | .atomsXor win a b => Sys2Proof.Machine.execAtomsXor win a b s
  | .atomsSwap win a b => Sys2Proof.Machine.execAtomsSwap win a b s
  | .atomsCas win a b => Sys2Proof.Machine.execAtomsCas win a b s
  | .atomsAddF32 win a b => Sys2Proof.Machine.execAtomsAddF32 win a b s
  | .prefetch c a => Sys2Proof.Machine.execPrefetch c a s
  | .waitmemNe c a b => Sys2Proof.Machine.execWaitmemNe c a b s
  | .waitmemEq c a b => Sys2Proof.Machine.execWaitmemEq c a b s
  | .spempty a => Sys2Proof.Machine.execSpempty a s
  | .spfill a => Sys2Proof.Machine.execSpfill a s
  | .shape c a b => Sys2Proof.Machine.execShape c a b s
  | .fence scope kind => Sys2Proof.Machine.execFence scope kind s
  | .fenceShape => Sys2Proof.Machine.execFenceShape s
  | .barArv lvl idx => Sys2Proof.Machine.execBarArv lvl idx s
  | .barWait lvl idx b => Sys2Proof.Machine.execBarWait lvl idx b s
  | .barSync lvl idx b => Sys2Proof.Machine.execBarSync lvl idx b s
  | .barExp lvl idx b => Sys2Proof.Machine.execBarExp lvl idx b s
  | .tcfg t b => Sys2Proof.Machine.execTcfg t b s
  | .tld c t b => Sys2Proof.Machine.execTld c t b s
  | .tst c t b => Sys2Proof.Machine.execTst c t b s
  | .mma tb ta d => Sys2Proof.Machine.execMma tb ta d s
  | .mmaq f tb ta d => Sys2Proof.Machine.execMmaq f tb ta d s
  | .mmaS c a ta d => Sys2Proof.Machine.execMmaS c a ta d s
  | .accAlloc d => Sys2Proof.Machine.execAccAlloc d s
  | .accFree d => Sys2Proof.Machine.execAccFree d s
  | .accZero d => Sys2Proof.Machine.execAccZero d s
  | .accRd f d b => Sys2Proof.Machine.execAccRd f d b s
  | .accWr f d b => Sys2Proof.Machine.execAccWr f d b s
  | .accDrain c d b => Sys2Proof.Machine.execAccDrain c d b s
  | .accDrainAdd c d b => Sys2Proof.Machine.execAccDrainAdd c d b s
  | .accQuant d t => Sys2Proof.Machine.execAccQuant d t s
  | .flueBoard c ord rel a m => Sys2Proof.Machine.execFlueBoard c ord rel a m s
  | .flueAlight c ord rel a m => Sys2Proof.Machine.execFlueAlight c ord rel a m s
  | .fluePeek c ord acq a b => Sys2Proof.Machine.execFluePeek c ord acq a b s
  | .flueWaitEq c ord acq a b => Sys2Proof.Machine.execFlueWaitEq c ord acq a b s
  | .flueWaitNe c ord acq a b => Sys2Proof.Machine.execFlueWaitNe c ord acq a b s
  | .flueRev c b => Sys2Proof.Machine.execFlueRev c b s
  | .flueCap c ord ordering op a b => Sys2Proof.Machine.execFlueCap c ord ordering op a b s
  | .flueCapS2 c ord ordering op a b => Sys2Proof.Machine.execFlueCapS2 c ord ordering op a b s
  | .flueCapS4 c ord ordering op a b => Sys2Proof.Machine.execFlueCapS4 c ord ordering op a b s
  | .qw w q a => Sys2Proof.Machine.execQw w q a s
  | .qgo q => Sys2Proof.Machine.execQgo q s
  | .qgoC q c => Sys2Proof.Machine.execQgoC q c s
  | .qrd q toS b => Sys2Proof.Machine.execQrd q toS b s
  | .qstat q b => Sys2Proof.Machine.execQstat q b s
  | .launch c a => Sys2Proof.Machine.execLaunch c a s
  | .graphTrig c a b => Sys2Proof.Machine.execGraphTrig c a b s
  | .amsend a b => Sys2Proof.Machine.execAmsend a b s
  | .hcmd c a b => Sys2Proof.Machine.execHcmd c a b s
  | .sweep => Sys2Proof.Machine.execSweep s
  | .phalt a => Sys2Proof.Machine.execPhalt a s
  | .presume a => Sys2Proof.Machine.execPresume a s
  | .resync a => Sys2Proof.Machine.execResync a s
  | .esign c a => Sys2Proof.Machine.execEsign c a s
  | .psnap b => Sys2Proof.Machine.execPsnap b s
  | .mfcr idx toS b => Sys2Proof.Machine.execMfcr idx toS b s
  | .mtcr idx a => Sys2Proof.Machine.execMtcr idx a s
  | .tret => Sys2Proof.Machine.execTret s
  | .ifence => Sys2Proof.Machine.execIfence s
  | .bkpt => Sys2Proof.Machine.execBkpt s
  | .syscall n => Sys2Proof.Machine.execSyscall n s
  | .hvcall n => Sys2Proof.Machine.execHvcall n s
  | .joinHoldEnd g e => Sys2Proof.Machine.execJoinHoldEnd g e s
  | .yieldRelease g e => Sys2Proof.Machine.execYieldRelease g e s
  | .progressBoundExpiry g e => Sys2Proof.Machine.execProgressBoundExpiry g e s
  | .splitWake g e => Sys2Proof.Machine.execSplitWake g e s
  | .dispatch p => Sys2Proof.Machine.execDispatch p s
  | .blockPlacement p => Sys2Proof.Machine.execBlockPlacement p s
  | .blockCompletion b => Sys2Proof.Machine.execBlockCompletion b s
  | .graphRunStart p n => Sys2Proof.Machine.execGraphRunStart p n s
  | .eviction g => Sys2Proof.Machine.execEviction g s
  | .reinstatement g => Sys2Proof.Machine.execReinstatement g s
  | .sliceEnd core => Sys2Proof.Machine.execSliceEnd core s
  | .trapEntry g e => Sys2Proof.Machine.execTrapEntry g e s
  | .blockHalt g => Sys2Proof.Machine.execBlockHalt g s
  | .loadReturn id => Sys2Proof.Machine.execLoadReturn id s
  | .accessRejection id => Sys2Proof.Machine.execAccessRejection id s
  | .homeSliceAccess id keep err => Sys2Proof.Machine.execHomeSliceAccess id keep err s
  | .extentChangeCompletion e => Sys2Proof.Machine.execExtentChangeCompletion e s
  | .matrixStart core => Sys2Proof.Machine.execMatrixStart core s
  | .matrixCompletion core => Sys2Proof.Machine.execMatrixCompletion core s
  | .tileFill id => Sys2Proof.Machine.execTileFill id s
  | .drainDelivery id => Sys2Proof.Machine.execDrainDelivery id s
  | .copy1d id => Sys2Proof.Machine.execCopy1d id s
  | .copy2d id => Sys2Proof.Machine.execCopy2d id s
  | .copytile id => Sys2Proof.Machine.execCopytile id s
  | .fill id => Sys2Proof.Machine.execFill id s
  | .seal id => Sys2Proof.Machine.execSeal id s
  | .open_ id => Sys2Proof.Machine.execOpen id s
  | .gather id => Sys2Proof.Machine.execGather id s
  | .scatter id => Sys2Proof.Machine.execScatter id s
  | .send id => Sys2Proof.Machine.execSend id s
  | .recv id => Sys2Proof.Machine.execRecv id s
  | .bcast id => Sys2Proof.Machine.execBcast id s
  | .engineSectorDelivery id => Sys2Proof.Machine.execEngineSectorDelivery id s
  | .engineCommandCompletion id => Sys2Proof.Machine.execEngineCommandCompletion id s
  | .engineCommandFailure id => Sys2Proof.Machine.execEngineCommandFailure id s
  | .fluePass stop => Sys2Proof.Machine.execFluePass stop s
  | .flueAlightCompletion id => Sys2Proof.Machine.execFlueAlightCompletion id s
  | .messageArrival src peer => Sys2Proof.Machine.execMessageArrival src peer s
  | .handlerSpawn core => Sys2Proof.Machine.execHandlerSpawn core s
  | .signedReadingWrite g e => Sys2Proof.Machine.execSignedReadingWrite g e s
  | .reconfigurationListApply => Sys2Proof.Machine.execReconfigurationListApply s
  | .sweepPass => Sys2Proof.Machine.execSweepPass s
  | .sweepPassCompletion => Sys2Proof.Machine.execSweepPassCompletion s
  | .hostSnoop pasid line data => Sys2Proof.Machine.execHostSnoop pasid line data s
  | .atsCompletion die pasid page size res => Sys2Proof.Machine.execAtsCompletion die pasid page size res s
  | .atsInvalidation pasid page size => Sys2Proof.Machine.execAtsInvalidation pasid page size s
  | .pageRequestResponse pasid page ok => Sys2Proof.Machine.execPageRequestResponse pasid page ok s
  | .hostCxlMemAccess off size data abort => Sys2Proof.Machine.execHostCxlMemAccess off size data abort s
  | .hostRegisterWrite off val => Sys2Proof.Machine.execHostRegisterWrite off val s
  | .evtailWrite val => Sys2Proof.Machine.execEvtailWrite val s
  | .mailboxLaunch => Sys2Proof.Machine.execMailboxLaunch s
  | .mailboxGraphTrig => Sys2Proof.Machine.execMailboxGraphTrig s
  | .reconfigure => Sys2Proof.Machine.execReconfigure s
  | .energyRead => Sys2Proof.Machine.execEnergyRead s
  | .attest => Sys2Proof.Machine.execAttest s
  | .kemKey => Sys2Proof.Machine.execKemKey s
  | .keyLoad => Sys2Proof.Machine.execKeyLoad s
  | .channelResync => Sys2Proof.Machine.execChannelResync s
  | .mode_ => Sys2Proof.Machine.execMode s
  | .migrateWrap => Sys2Proof.Machine.execMigrateWrap s
  | .migrateUnwrap => Sys2Proof.Machine.execMigrateUnwrap s
  | .pair => Sys2Proof.Machine.execPair s
  | .linkUp port rep => Sys2Proof.Machine.execLinkUp port rep s
  | .linkLoss port => Sys2Proof.Machine.execLinkLoss port s
  | .deviceReset strap => Sys2Proof.Machine.execDeviceReset strap s
  | .perst => Sys2Proof.Machine.execPerst s
  | .powerLoss strap => Sys2Proof.Machine.execPowerLoss strap s
  | .powerWindowEnd power temp => Sys2Proof.Machine.execPowerWindowEnd power temp s
  | .energyReconciliation m => Sys2Proof.Machine.execEnergyReconciliation m s
  | .energyPersist => Sys2Proof.Machine.execEnergyPersist s
  | .hbmBackgroundRead ces ues => Sys2Proof.Machine.execHbmBackgroundRead ces ues s
  | .damperWindowEnd core => Sys2Proof.Machine.execDamperWindowEnd core s
  | .raisedWriter ch writer => Sys2Proof.Machine.execRaisedWriter ch writer s
  | .hostRegisterRead off => Sys2Proof.Machine.execHostRegisterRead off s
  | .hostLinkLoss down => Sys2Proof.Machine.execHostLinkLoss down s
  | .peerPair port local_ peer ok => Sys2Proof.Machine.execPeerPair port local_ peer ok s

end Sys2Proof.Machine
end

