-- ==== Sys2Proof/Machine/Fetch.lean ====
section
/-! DEFINITION. From a split to its next instruction: fusion at issue (R35), fetch
(R74, R172, R245, R246) and decoding (R92). -/

namespace Sys2Proof.Machine

noncomputable section

/-! ### Fetch -/

/-- The lines of code a split holds. -/
abbrev Code := Store (List Byte)

/-- Why a parcel does not arrive: a cause with its address, or a wait for the translation of its host page (R202 to R204). -/
inductive NoCode where
  | bad (cause addr : Nat)
  | wait (s : State)

/-- A code line that a split does not hold is read at its home slice, or from the host (R172, R202, R213, R245). -/
def State.readLine (s : State) (who core part : Nat) (cap : Cap) (a : Nat) : Except NoCode (List Byte) :=
  let base := a / 128 * 128
  if isHost a then
    match s.reachFor who core part cap.colour cap.gen false a 2 with
    | .fail cause addr => .error (.bad cause addr)
    | .wait s => .error (.wait s)
    | .ok => .ok (s.bytesAt (s.pasid part) base 128)
  else if s.poisoned a 2 then .error (.bad 20 a)
  else .ok (s.bytesAt 0 base 128)

/-- One parcel at a code offset: orders 1 to 4 of R172 with X, the code bounds of R74, and for a line not held orders 6 and 7 and the
read (R245, R246). -/
def State.parcel (s : State) (who core part : Nat) (p : Part) (cap : Cap) (codeLen : Nat) (stale : List Nat) (code : Code) (off : Nat) :
    Except NoCode (Code × BitVec 16) :=
  let a := cap.at off
  let line := a / 128
  let pick := fun (bs : List Byte) => BitVec.ofNat 16 (leNat ((bs.drop (a % 128)).take 2))
  match check14 cap 0 permX off 2 with
  | some cause => .error (.bad cause a)
  | none =>
    if off < 16 || 16 + codeLen < off + 2 then .error (.bad 2 a)
    else
      match look code line, s.check67 p cap.colour cap.gen false a 2 with
      | none, some (cause, addr) => .error (.bad cause addr)
      | held, bad =>
        if held.isSome && (stale.contains line || bad.isSome) then .ok (code, pick (held.getD []))
        else match s.readLine who core part cap a with
          | .error x => .error x
          | .ok bs => .ok (set code line bs, pick bs)

/-- The bytes of a parcel. -/
def parcelOf (x : BitVec 16) : List Byte := [x.extractLsb' 0 8, x.extractLsb' 8 8]

/-- The bytes of the instruction at an offset, as far as decoding needs them: one parcel, two, or a prefix and what follows it
(R73, R78). -/
def State.fetchAt (s : State) (who core part : Nat) (p : Part) (cap : Cap) (codeLen : Nat) (stale : List Nat) (code : Code) (off : Nat) :
    Except NoCode (Code × List Byte) :=
  match s.parcel who core part p cap codeLen stale code off with
  | .error x => .error x
  | .ok (code, p0) =>
    if !p0.getLsbD 0 then .ok (code, parcelOf p0)
    else match s.parcel who core part p cap codeLen stale code (off + 2) with
      | .error x => .error x
      | .ok (code, p1) =>
        if p0.extractLsb' 1 7 != 0x3F then .ok (code, parcelOf p0 ++ parcelOf p1)
        else match s.parcel who core part p cap codeLen stale code (off + 4) with
          | .error x => .error x
          | .ok (code, p2) =>
            if !p2.getLsbD 0 then .ok (code, parcelOf p0 ++ parcelOf p1 ++ parcelOf p2)
            else match s.parcel who core part p cap codeLen stale code (off + 6) with
              | .error x => .error x
              | .ok (code, p3) => .ok (code, parcelOf p0 ++ parcelOf p1 ++ parcelOf p2 ++ parcelOf p3)

/-- The code length that bounds a split's fetch: the kernel's in U mode, the handler's own header's in S and H mode (R25, R74, R351). -/
def State.codeLenOf (s : State) (g : Gang) (sp : Split) (b : Block) : Nat :=
  if sp.mode == .u then b.hdr.codeLen else (s.headerWord (s.pasid b.part) (g.codeCap sp.mode) 2).toNat % 2 ^ 24

/-- The instruction word and prefix word that bytes which do not decode hold (R357). -/
def badWords (bs : List Byte) : Word × Word :=
  let w := BitVec.ofNat 32 (leNat (bs.take 4))
  if bs.length ≤ 4 then (w, 0) else (BitVec.ofNat 32 (leNat (bs.drop 4)), w)

/-! ### Issue -/

/-- Fuses the split at issue with every other ready split of its gang that presents the same program counter, mode, depth and DOUBLE
state, and has no instruction half done (R35). -/
def State.fuseAll (s : State) (gid e : Nat) : State × Nat :=
  (List.range 4).foldl (fun (s, e) f =>
    match s.gang gid with
    | none => (s, e)
    | some g => match look g.splits e, look g.splits f with
      | some a, some b =>
        if e != f && b.run == .ready && fusible a b && a.only == 0 && b.only == 0 then s.fuse gid e f a.pc else (s, e)
      | _, _ => (s, e)) (s, e)

/-- What the issue of a split finds: a state to go on from, or the instruction to execute. -/
inductive Found where
  | stop (s : State)
  | run (i : Instr) (s : State)

/-- Raises a cause found before decoding for every active lane of the split at cur. -/
def State.fetchTrap (s : State) (cause addr : Nat) : State :=
  match s.ctx with
  | none => s
  | some c => c.trapAll cause addr 0 c.pc

/-- The code lines that a fetch reads pass through their home slices and cross to the core (R200, R245, R396). -/
def State.fetched (s : State) (part : Nat) (stale : List Nat) (code : Code) (a n : Nat) : State :=
  (unitsOf 128 a n).foldl (fun s u => if stale.contains u && (look code u).isSome then s
    else (s.touchLine (u * 128) part false).carry part (u * 128) 128) s

/-- A core fetches a code line ahead for a split, which may issue from it as it is now (R164, R245; log 28). A line that no access through the
split's code capability could read is not fetched. -/
def State.fetchAhead (s : State) (gid e line : Nat) : State :=
  match s.gang gid with
  | none => s
  | some g => match look g.splits e, s.block g.block with
    | some sp, some b => match s.part b.part with
      | none => s
      | some p =>
        let cap := g.codeCap sp.mode
        let a := max (line * 128) cap.flat
        if !s.gangMoves gid g || line * 128 + 128 ≤ cap.flat || (check14 cap 0 permX ((a : Int) - cap.flat) 2).isSome ||
            (s.check67 p cap.colour cap.gen false a 2).isSome || !s.sendable b.core b.part a || s.poisoned (line * 128) 128 then s
        else
          let bs := s.bytesAt (s.pasid b.part) (line * 128) 128
          (s.fetched b.part [] [] (line * 128) 128).updSplit gid e fun x => { x with code := set x.code line bs }
    | _, _ => s

/-- Whether the split of some lanes has issued in this clk (R334). -/
def State.hasIssued (s : State) (gid : Nat) (m : Mask) : Bool := s.picks.any fun x => x.gang == gid && x.lanes &&& m != 0

/-- Whether an instruction finds its quadrant's sub-pipe taken in this clk, or the matrix engine entered by a higher quadrant (R334). -/
def State.pipeTaken (s : State) (x : Pick) : Bool :=
  s.picks.any fun y => y.core == x.core && ((y.quad == x.quad && y.pipe == x.pipe) || (x.matrix && y.matrix && decide (x.quad < y.quad)))

/-- Takes a split to its next instruction: fusion, fetch, decoding, the sub-pipes, the damper. An instruction that the split has half done is the
one that it issued. The INSTRUCTION field of a fetch that fails is free (R357
gives none). -/
def State.find (s : State) (gid e : Nat) (stale : List Nat) : Found :=
  if !s.mayIssue gid e then .stop s
  else
    let (s, e) := s.fuseAll gid e
    match s.gang gid with
    | none => .stop s
    | some g => match look g.splits e, s.block g.block with
      | some sp, some b => match s.part b.part with
        | none => .stop s
        | some p =>
          if s.hasIssued gid sp.mask then .stop s else
          let stale := if sp.only == 0 then stale else sp.code.map (·.1)
          let cur : Issue := { gang := gid, entry := e, pc := sp.pc, size := 4, word := 0, pfx := none, pfxWord := 0 }
          match s.fetchAt gid b.core b.part p (g.codeCap sp.mode) (s.codeLenOf g sp b) stale sp.code sp.pc.toNat with
          | .error (.wait s) => .stop s
          | .error (.bad cause addr) =>
            let s := s.pageDone gid b.part addr 2
            .stop ({ s with cur := { cur with word := Config.freeValue s.fresh }, fresh := s.fresh + 1 }.fetchTrap cause addr)
          | .ok (code, bs) =>
            let s' := (s.fetched b.part stale sp.code ((g.codeCap sp.mode).at sp.pc.toNat) bs.length).pageDone gid b.part
              ((g.codeCap sp.mode).at sp.pc.toNat) bs.length
            let s' := s'.updSplit gid e fun x => { x with code := code }
            match decode bs with
            | .error _ =>
              .stop ({ s' with cur := { cur with size := bs.length, word := (badWords bs).1, pfxWord := (badWords bs).2 } }.fetchTrap 32 0)
            | .ok d =>
              if s.pipeTaken (pickOf b.core gid g.seat sp.mask d.word) then .stop s
              else if damped d.word && s.dampHeld g && s.urgent != some (gid, e) then .stop s
              else .run d.instr { s' with
                cur := { cur with size := d.size, word := d.word, pfx := d.pfx, pfxWord := d.pfxWord }
                urgent := if s.urgent == some (gid, e) then none else s.urgent }
      | _, _ => .stop s

end

end Sys2Proof.Machine
end

