-- ==== Sys2Proof/Machine/Schedule.lean ====
section
/-! DEFINITION. Moves, and which move comes next where the agenda names none (log 1). The spec fixes no order between splits, device steps and
clk beyond the conditions of each step; every order is some agenda. -/

namespace Sys2Proof.Machine

noncomputable section

/-! ### The pick (R334) -/

/-- The splits that come before the split at cur in its quadrant: those of older gangs on the core, and lower entries of its own gang (R334). -/
def State.aheadOf (s : State) (gid e : Nat) : List (Nat × Nat) :=
  match s.gang gid with
  | none => []
  | some g => s.gangs.flatMap fun (k, x) =>
      if s.coreOf x == s.coreOf g && x.seat % 4 == g.seat % 4 && decide (x.order < g.order ∨ (k = gid)) then
        (x.splits.filter fun (f, _) => (k != gid || decide (f < e)) && s.mayIssue k f).map fun (f, _) => (k, f)
      else []

/-- Whether a split would issue an instruction into a sub-pipe now: it is ready, its sources are full, and nothing else holds its instruction. -/
def State.wouldIssue (s : State) (gid e pipe : Nat) : Bool :=
  match s.find gid e [] with
  | .stop _ => false
  | .run i t => pipeEvent t.cur.word == pipe && (match exec i t with
    | .next u => decide (t.picks.length < u.picks.length)
    | _ => false)

/-- Whether the quadrant picks another split for the sub-pipe of the instruction at t.cur: an older gang's, or a lower entry of the gang, unless the
progress bound has let this one issue (R42, R334; log 1). -/
def State.passedOver (s : State) (gid e : Nat) (t : State) : Bool :=
  s.urgent != some (gid, e) && (s.aheadOf gid t.cur.entry).any fun (k, f) => s.wouldIssue k f (pipeEvent t.cur.word)

/-! ### Moves -/

/-- Whether a constructor is a step of the device, the host or a peer: it has no encoding. -/
def isDevice (i : Instr) : Bool := (encode i).isNone

/-- Carries out one move. A device move names a device step; an instruction comes from a split only. -/
def State.run (s : State) (m : Move) : Out :=
  match m with
  | .tick => .next s.tick
  | .early id k => .next (s.early id k)
  | .i3c off => .next (s.i3c off)
  | .ecc x c => .next (s.ecc x c)
  | .dev i => if isDevice i then exec i s else .next s
  | .fetchAhead gid e line => .next (s.fetchAhead gid e line)
  | .issue gid e stale => match s.find gid e stale with
    | .stop s => .next s
    | .run i t => if s.passedOver gid e t then .next s else exec i t

/-! ### The default order -/

/-- The steps of requests, flue operations, tile loads, drains and matrix instructions. -/
def State.accessMoves (s : State) : List Instr :=
  (s.reqs.flatMap fun (id, r) =>
    if r.acc == .sign then (List.range 4).map fun e => .signedReadingWrite r.gang e
    else [.homeSliceAccess id true .none, .loadReturn id, .accessRejection id]) ++
  (s.flueOps.flatMap fun (id, _) => [.flueAlightCompletion id, .accessRejection id]) ++
  (s.tileOps.flatMap fun (id, _) => [.tileFill id, .accessRejection id]) ++
  (s.drains.flatMap fun (id, _) => [.drainDelivery id, .accessRejection id]) ++
  (s.matrix.flatMap fun o => [.matrixCompletion o.core, .matrixStart o.core]) ++
  s.changing.map fun e => .extentChangeCompletion e

/-- The start of an engine command by its KIND. -/
def engineStart (kind id : Nat) : List Instr :=
  match kind with
  | 1 => [.copy1d id]
  | 2 => [.copy2d id]
  | 3 => [.copytile id]
  | 4 => [.fill id]
  | 5 => [.seal id]
  | 6 => [.open_ id]
  | 0x10 => [.gather id]
  | 0x11 => [.scatter id]
  | 0x20 => [.send id]
  | 0x21 => [.recv id]
  | 0x22 => [.bcast id]
  | _ => []

/-- The steps of the engines. A failure comes by itself only where the command has failed already. -/
def State.engineMoves (s : State) : List Instr :=
  s.engines.flatMap fun (id, e) => match e.stage with
    | .failing _ => [.engineCommandFailure id]
    | _ => engineStart e.kind id ++ [.engineSectorDelivery id, .engineCommandCompletion id]

/-- The steps of splits, gangs and blocks. Eviction is the core scheduler's choice (R45): it comes by the agenda only. -/
def State.splitMoves (s : State) : List Instr :=
  (s.gangs.flatMap fun (g, x) =>
    .blockHalt g :: .reinstatement g :: x.splits.flatMap fun (e, _) => [.joinHoldEnd g e, .yieldRelease g e, .splitWake g e, .trapEntry g e]) ++
  s.blocks.map fun (b, _) => .blockCompletion b

/-- The cores that a partition in use names or holds. -/
def State.coresInUse (s : State) : List Nat :=
  (List.range 512).filter fun n => (s.core n).occ.isSome || s.parts.any fun (_, p) => p.inUse && p.coreSet.getLsbD n

/-- The steps of the schedulers: turns, launches, graphs, messages. -/
def State.schedulerMoves (s : State) : List Instr :=
  (s.coresInUse.flatMap fun n => [.sliceEnd n, .handlerSpawn n, .damperWindowEnd n]) ++
  (s.cores.filterMap fun (n, k) => if k.outbound.isEmpty then none else some (.messageArrival n none)) ++
  (s.graphs.map fun (_, g) => .graphRunStart g.part g.number) ++
  (s.parts.flatMap fun (n, _) => [.dispatch n, .blockPlacement n])

/-- The steps of reconfiguration, the sweeper and the mailbox. -/
def State.controlMoves (s : State) : List Instr :=
  (if s.mailbox.run.isSome then [.mailboxLaunch, .mailboxGraphTrig, .reconfigure, .energyRead, .attest, .kemKey, .keyLoad, .channelResync,
    .mode_, .migrateWrap, .migrateUnwrap, .pair] else []) ++ [.reconfigurationListApply, .sweepPassCompletion, .sweepPass]

/-- The steps that the device may take by itself. What comes from outside, and what only time brings, comes by the agenda. -/
def State.deviceMoves (s : State) : List Instr :=
  s.accessMoves ++ s.engineMoves ++ s.splitMoves ++ s.controlMoves ++ s.schedulerMoves

/-- The first device step that changes the state. -/
def State.deviceStep (s : State) : Option State :=
  s.deviceMoves.findSome? fun i => match exec i s with
    | .next t => if t = s then none else some t
    | _ => none

/-- A place in the order in which a quadrant picks: core and quadrant, the gang's placement, the split entry (R334). -/
abbrev Turn := Nat × Nat × Nat

def Turn.before (x y : Turn) : Bool := decide (x.1 < y.1 ∨ (x.1 = y.1 ∧ (x.2.1 < y.2.1 ∨ (x.2.1 = y.2.1 ∧ x.2.2 < y.2.2))))

/-- The ready split that is looked at next in this clk: in each quadrant the oldest gang first, then the lower split entry (R334). One whose
instruction cannot issue is passed over and uses no slot. -/
def State.nextSplit (s : State) : Option (Nat × Nat) :=
  let xs := s.gangs.flatMap fun (g, x) =>
    (x.splits.filter fun (e, _) => s.mayIssue g e && !s.tried.contains (g, e)).map fun (e, _) =>
      ((4 * s.coreOf x + x.seat % 4, x.order, e), g)
  match xs with
  | [] => none
  | x :: r =>
    let y := r.foldl (fun a b => if Turn.before b.1 a.1 then b else a) x
    some (y.2, y.1.2.2)

/-- A move where the agenda names none: a device step if one is due, else each ready split's chance to issue in this clk, else one clk. -/
def State.defaultMove (s : State) : Out :=
  match s.deviceStep with
  | some t => .next t
  | none => match s.nextSplit with
    | some (g, e) => { s with tried := (g, e) :: s.tried }.run (.issue g e [])
    | none => .next s.tick

end

end Sys2Proof.Machine
end

