-- ==== Sys2Proof/Machine/Step.lean ====
section
/-! DEFINITION. The step: the agenda's next move, or the default one; and a state that runs a given instruction next. -/

namespace Sys2Proof.Machine

/-- One step of the machine. -/
noncomputable def step (s : State) : Host.Outcome State Fault Refusal :=
  match s.agenda with
  | m :: r => { s with agenda := r }.run m
  | [] => s.defaultMove

/-- s with an instruction where the next step fetches: its bytes in memory order, zeros behind them (R5, R73; log 9). -/
def State.withFetchWord (s : State) (nbits w : Nat) : State := s.loaded (bytesOfNat 8 (w % 2 ^ nbits))

end Sys2Proof.Machine
end

