-- ==== Sys2Proof/Safety.lean ====
section
/-! DEFINITION. The terms in which statements speak of a run: the invariant that every step keeps, when an instruction executes, which
registers it may write, and what it leaves alone. -/

namespace Sys2Proof.Machine

/-! ### The invariant -/

/-- Device memory and host memory are in canonical form. -/
def State.Canonical (s : State) : Prop := Memory.wf s.mem ∧ Memory.wf s.hostMem

/-! ### When an instruction executes -/

/-- The conditions of R92, R37, R58 and R59 for the split under cur: lanes are left, its mode suffices, the static and the declared-count
rules hold, every register named exists, K2 code has the instruction, a collective one finds its gang converged, every source and
destination is full where it is used, and neither a source nor the predicate holds an uncorrectable error (R213). -/
def Ctx.ready (c : Ctx) (n : Needs) : Bool :=
  c.active != 0 && decide (modeRank n.priv ≤ modeRank c.sp.mode) && n.wf && n.also c && n.srcs.all c.srcOk && n.dsts.all c.dstOk &&
    (n.k2 || !c.k2) && (!n.coll || c.converged) && (n.srcs.all fun x => c.emptyLanes x == 0) && (n.srcs.all fun x => c.badLanes x == 0) &&
    c.predBad == 0 && n.dsts.all fun x => !c.dstEmpty c.live x

/-! ### What an instruction writes and leaves -/

/-- The registers an instruction may write: keys of v and k registers, written in its live lanes, and of s and c registers. -/
structure Regs where
  v : List Nat := []
  s : List Nat := []
  k : List Nat := []
  c : List Nat := []

/-- Gang g' holds what g holds, but for the registers of w with their errors, the quad tags beside its v registers, the splits, and the counts of
issued instructions. -/
structure Gang.Kept (g g' : Gang) (live : Mask) (w : Regs) : Prop where
  v : ∀ key l, l < 32 → (key ∈ w.v → live.getLsbD l = false) → g'.vAt key l = g.vAt key l ∧ g'.vFull key l = g.vFull key l
  tag : ∀ key l, l < 32 → ((∃ x ∈ w.v, x / 4 = key / 4) → live.getLsbD l = false) → g'.tagAt key l = g.tagAt key l
  s : ∀ key, key ∉ w.s → g'.sAt key = g.sAt key ∧ g'.sFull key = g.sFull key
  k : ∀ key l, l < 32 → (key ∈ w.k → live.getLsbD l = false) → g'.kAt key l = g.kAt key l
  c : ∀ key, key ∉ w.c → lookD Cap.null g'.c key = lookD Cap.null g.c key
  vBad : ∀ key l, l < 32 → (key ∈ w.v → live.getLsbD l = false) → (lookD 0 g'.vBad key).getLsbD l = (lookD 0 g.vBad key).getLsbD l
  sBad : ∀ key, key ∉ w.s → lookD false g'.sBad key = lookD false g.sBad key
  kBad : ∀ key l, l < 32 → (key ∈ w.k → live.getLsbD l = false) → (lookD 0 g'.kBad key).getLsbD l = (lookD 0 g.kBad key).getLsbD l
  cBad : ∀ key, key ∉ w.c → lookD false g'.cBad key = lookD false g.cBad key
  rest : g' = { g with v := g'.v, vEmpty := g'.vEmpty, vTag := g'.vTag, vBad := g'.vBad, s := g'.s, sEmpty := g'.sEmpty, sBad := g'.sBad,
                       k := g'.k, kBad := g'.kBad, c := g'.c, cBad := g'.cBad, splits := g'.splits, ticks := g'.ticks, skid := g'.skid }

/-- The split of an instruction that has completed: past it. -/
def Ctx.past (c : Ctx) : Split := { c.sp with pc := c.next, only := 0 }

/-- The sub-pipe that the instruction takes in its clk (R334). -/
def Ctx.pick (c : Ctx) : Pick := pickOf c.core c.gid c.g.seat c.active c.word

/-- The gang's counts once the instruction has issued: one more by each of its lanes (R174), and the skid under a block halt (R51). -/
def Ctx.tickedLanes (c : Ctx) : List Nat := c.g.ticksWith c.active
def Ctx.skidNow (c : Ctx) : Nat := if c.skids then c.g.skid + 1 else c.g.skid

/-- What the performance counters of the partition count for an instruction of one lane group (R392). -/
def Ctx.counted (c : Ctx) (s : State) : State := (s.count c.core c.pid 2 1).count c.core c.pid (pipeEvent c.word) 1

/-- t follows from u by the issue and completion of the instruction under c: its sub-pipe is taken, and else only its gang and the counters of
its core change; of its gang only the registers of w and the counts of issued instructions, and of its splits only the issuing one, which becomes
sp. -/
structure Ctx.Completes (c : Ctx) (u t : State) (w : Regs) (sp : Split) : Prop where
  state : t = { u with gangs := t.gangs, cores := t.cores, picks := c.pick :: u.picks }
  cores : t.cores = (c.counted u).cores
  others : ∀ k, k ≠ c.gid → t.gang k = u.gang k
  own : ∃ g, t.gang c.gid = some g ∧ c.g.Kept g c.live w ∧ g.ticks = c.tickedLanes ∧ g.skid = c.skidNow ∧ look g.splits c.e = some sp ∧
    ∀ e, e ≠ c.e → look g.splits e = look c.g.splits e

/-- t follows from s by an instruction that only moves lanes: the gang keeps its registers, and P holds of its splits. -/
structure Ctx.Moves (c : Ctx) (s t : State) (P : Store Split → Prop) : Prop where
  state : t = { s with gangs := t.gangs, cores := t.cores, picks := c.pick :: s.picks }
  cores : t.cores = (c.counted s).cores
  others : ∀ k, k ≠ c.gid → t.gang k = s.gang k
  own : ∃ g, t.gang c.gid = some g ∧ g = { c.g with splits := g.splits, ticks := c.tickedLanes, skid := c.skidNow } ∧ P g.splits

/-- The splits of the gang under c, but for those of some entries. -/
def Ctx.SameSplits (c : Ctx) (splits : Store Split) (but : List Nat) : Prop := ∀ e, e ∉ but → look splits e = look c.g.splits e

/-- Of the lanes of the split under c that go to x or to a target of rest, goers naming those of each, the first stay in it, and those of each further
target form a split in the next of the free entries, or go onto the stack where none is left (R32, R157). -/
def Ctx.Placed (c : Ctx) (goers : Word → Mask) (x : Word) (rest : List Word) (free : List Nat) (splits : Store Split) : Prop :=
  (∃ sp, look splits c.e = some sp ∧ sp = { c.past with
    mask := goers x, pc := x, trap := sp.trap, stack := ((rest.drop free.length).map fun y => ⟨y, goers y⟩).reverse ++ c.sp.stack }) ∧
  ∀ y f, (y, f) ∈ rest.zip free → look splits f = some { Split.start (goers y) y c.sp.mode c.sp.depth [] with dbl := c.sp.dbl, code := c.sp.code }

/-- The little-endian value of n bytes of device memory at a. -/
def State.value (s : State) (a n : Nat) : Nat := leNat (s.bytesAt 0 a n)

/-- u follows from s by the entry of every active lane of the split under c into the handler of mode at the next depth (R355): the saved
state, the program counter, the return record, and the frame of 64 bytes (R357) in the gang's seat record; all else of its gang, every
other gang, and every other byte of memory stay. -/
structure Ctx.Enters (c : Ctx) (s u : State) (cause addr detail : Nat) (resume : Word) (mode : Mode) : Prop where
  split : ∃ g, u.gang c.gid = some g ∧
    look g.splits c.e = some (Split.start c.active (if mode = .h then s.htvec else c.part.tvec) mode (c.sp.depth + 1) []) ∧
    c.SameSplits g.splits [c.e] ∧
    look g.traps (c.sp.depth + 1) = some
      { mode := c.sp.mode, depth := c.sp.depth, entry := c.e, lanes := c.active, saved := some c.sp.stack, pending := none,
        frame := s.frameCap c.g (c.sp.depth + 1) } ∧
    (∀ k, k ≠ c.sp.depth + 1 → look g.traps k = look c.g.traps k) ∧
    g = { c.g with splits := g.splits, traps := g.traps, ticks := c.tickedLanes, skid := c.skidNow }
  others : ∀ k, k ≠ c.gid → u.gang k = s.gang k
  frame : let f := s.frameAt c.g (c.sp.depth + 1)
    u.value f 8 = addr ∧ u.value (f + 8) 4 = c.active.toNat ∧ u.value (f + 12) 4 = c.word.toNat ∧ u.value (f + 16) 4 = c.pc.toNat ∧
      u.value (f + 20) 4 = resume.toNat ∧ u.value (f + 24) 1 = cause ∧
      u.value (f + 25) 1 = (if c.pfxWord = 0 then 0 else 128) + bankOf mode * 16 + bankOf c.sp.mode * 4 + (c.sp.depth + 1) ∧
      u.value (f + 26) 1 = c.e ∧ u.value (f + 28) 4 = c.pfxWord.toNat ∧ u.value (f + 56) 8 = detail ∧
      ∀ a, a < f ∨ f + 64 ≤ a → u.byte a = s.byte a
  rest : u = { s with gangs := u.gangs, cores := u.cores, blocks := u.blocks, mem := u.mem, tags := u.tags, poison := u.poison,
                      wordBad := u.wordBad, slices := u.slices, tally := u.tally, reqs := u.reqs, picks := c.pick :: s.picks }

/-- The split under c may enter a trap now: it is ready, its depth has room and is not in progress, and its seat record can be written (R41,
R354, R363, R364). -/
abbrev Ctx.MayTrap (c : Ctx) (s : State) : Prop :=
  c.sp.run = .ready ∧ c.sp.depth < 3 ∧ c.e < 4 ∧ look c.g.traps (c.sp.depth + 1) = none ∧ s.seatOk c.g = true ∧ c.active ≠ 0

/-- Lane l executes the instruction. -/
def Ctx.Lane (c : Ctx) (l : Nat) : Prop := l < 32 ∧ c.live.getLsbD l = true

/-- The state after an instruction has put accesses in flight, numbered from the next id on. -/
def State.sent (s : State) (rs : List Req) : State :=
  { s with reqs := s.reqs ++ rs.zipIdx.map (fun x => (s.nextId + 1 + x.2, x.1)), nextId := s.nextId + 1 + rs.length }

/-- The view c once requests have gone out: a strong store or an atomic has followed the fences with release of its lanes (R236). -/
def Ctx.released (c : Ctx) (rs : List Req) : Ctx :=
  { c with g := rs.foldl (fun g r => if r.strongWrite then g.relDone r.lanes else g) c.g }

/-- The view c after a write of the scratchpad in its live lanes, which is a strong one or not (R236). -/
def Ctx.padReleased (c : Ctx) (strong : Bool) : Ctx := { c with g := if strong then c.g.relDone c.live else c.g }

/-- v register r of the gang under c holds x in lane l, written whole: full, with no error, and the tag of its quad clear (R55, R107, R213). -/
def Ctx.HoldsV (c : Ctx) (t : State) (r l : Nat) (x : Word) : Prop :=
  ∃ g, t.gang c.gid = some g ∧ g.vAt (c.vk r) l = x ∧ g.vFull (c.vk r) l = true ∧ g.tagAt (c.vk r) l = false ∧
    (lookD 0 g.vBad (c.vk r)).getLsbD l = false

/-- Quad r of the gang under c holds the 128 bits and the tag of x in lane l, all four registers full (R55). -/
def Ctx.HoldsQuad (c : Ctx) (t : State) (r l : Nat) (x : Cap) : Prop :=
  ∃ g, t.gang c.gid = some g ∧ g.quadAt (c.vk r) l = x ∧ ∀ i, i < 4 → g.vFull (c.vk r + i) l = true ∧
    (lookD 0 g.vBad (c.vk r + i)).getLsbD l = false

/-- The pair from v register r holds x in lane l, its low word in register r (R119). -/
def Ctx.HoldsPair (c : Ctx) (t : State) (r l : Nat) (x : BitVec 64) : Prop :=
  c.HoldsV t r l (x.extractLsb' 0 32) ∧ c.HoldsV t (r + 1) l (x.extractLsb' 32 32)

/-- v register r of the gang under c is empty in lane l. -/
def Ctx.EmptyV (c : Ctx) (t : State) (r l : Nat) : Prop := ∃ g, t.gang c.gid = some g ∧ g.vFull (c.vk r) l = false

/-- s register r of the gang under c holds x, full; and is empty. -/
def Ctx.HoldsS (c : Ctx) (t : State) (r : Nat) (x : Word) : Prop :=
  ∃ g, t.gang c.gid = some g ∧ g.sAt (c.sk r) = x ∧ g.sFull (c.sk r) = true
def Ctx.EmptyS (c : Ctx) (t : State) (r : Nat) : Prop := ∃ g, t.gang c.gid = some g ∧ g.sFull (c.sk r) = false

/-- k register k of the gang under c holds b in lane l. -/
def Ctx.HoldsK (c : Ctx) (t : State) (k l : Nat) (b : Bool) : Prop := ∃ g, t.gang c.gid = some g ∧ g.kAt k l = b

/-! ### Accesses in flight and capabilities -/

/-- t follows from u by an instruction that stays at its place and has not issued: only its gang changes, and of that only the registers of w and
the issuing split, which becomes sp. -/
structure Ctx.Stays (c : Ctx) (u t : State) (w : Regs) (sp : Split) : Prop where
  state : t = { u with gangs := t.gangs }
  others : ∀ k, k ≠ c.gid → t.gang k = u.gang k
  own : ∃ g, t.gang c.gid = some g ∧ c.g.Kept g c.live w ∧ g.ticks = c.g.ticks ∧ g.skid = c.g.skid ∧ look g.splits c.e = some sp ∧
    ∀ e, e ≠ c.e → look g.splits e = look c.g.splits e

/-- The request of one lane of a load, or of the split (lane 32): a line that hits in the L1 answers it at once, or rejects it where a word of the line is poisoned (R201, R213). -/
def Ctx.loadReq (c : Ctx) (acc : Access) (size : Nat) (signed cached : Bool) (cap : Cap) (off : Int) (dests : List Dest) (lane : Nat) : Req :=
  let r := c.req c.s.nextId lane acc (cap.at off) size cap dests
  match if cached && c.pfx.scope == 0 then c.s.l1Hit c.core cap (cap.at off) else none with
  | some x => { r with stage := x.answer signed (cap.at off) size }
  | none => r

/-- t follows from s by a load of every live lane into the v registers dsts: the registers are empty, a request of each lane is in flight,
and a split that reads the host window parks (R57, R218, R202, R41). -/
def Ctx.Loads (c : Ctx) (s t : State) (dsts : List Nat) (size : Nat) (acc : Cap → Access) (signed cached : Bool) (cap : Nat → Cap)
    (off : Nat → Int) : Prop :=
  let ls := lanesOf c.live
  let rs := ls.map fun l => c.loadReq (acc (cap l)) size signed cached (cap l) (off l) (dsts.map fun r => .v (c.vk r)) l
  let u := s.sent rs
  (∀ r ∈ dsts, ∀ l, c.Lane l → c.EmptyV t r l) ∧
  c.Completes (if cached then c.countLines u (ls.map fun l => (cap l, (cap l).at (off l))) else u) t { v := dsts.map c.vk }
    (if ls.any fun l => isHost ((cap l).at (off l)) then { c.past with run := .parked .host } else c.past)

/-- The capability k is tagged, with these fields and zeros in its reserved bits (R167). -/
def Cap.Is (k : Cap) (base len : Nat) (perm colour : BitVec 8) (gen : BitVec 16) (type : Nat) : Prop :=
  k.tag = true ∧ k.base = base ∧ k.len = len ∧ k.perm = perm ∧ k.colour = colour ∧ k.gen = gen ∧ k.type = type ∧ k.bits.extractLsb' 0 4 = 0

/-- c register r of the gang under c holds x. -/
def Ctx.HoldsC (c : Ctx) (t : State) (r : Nat) (x : Cap) : Prop :=
  ∃ g, t.gang c.gid = some g ∧ lookD Cap.null g.c (cKey c.sp.mode r) = x

/-- The block under c meets P in t, and every other block is as in s. -/
def Ctx.OnlyBlock (c : Ctx) (s t : State) (P : Block → Prop) : Prop :=
  (∃ b, t.block c.g.block = some b ∧ P b) ∧ ∀ id, id ≠ c.g.block → t.block id = s.block id

/-- The request r stands under id, and its home slice may perform it now: it is on its way, nothing that must go before it waits, no writer
of its channel is raised, and its gang is in its seat where it has to be (R235, R338, R47, R229). -/
abbrev State.MayReach (s : State) (id : Nat) (r : Req) : Prop :=
  look s.reqs id = some r ∧ (r.stage = .sent ∨ r.stage = .page) ∧ r.acc ≠ .sign ∧ s.groupBehind id r = false ∧
    lookD [] s.raised (s.homeSlice r.addr) = [] ∧ (r.acc.seated = true → s.seatedNow r.gang = true)

/-- The request r may be performed, passes its checks of orders 6 and 7 and its translation, and reads no poisoned word (R172, R202, R213). -/
abbrev State.Reaches (s : State) (id : Nat) (r : Req) : Prop :=
  s.MayReach id r ∧ s.reachReq r = .ok ∧ (r.acc.reads = true → s.poisoned r.addr r.size = false)

/-- Memory of t is that of s, but for n bytes at a flat address, as a partition names it, which now are bs. -/
def State.Wrote (s t : State) (part a : Nat) (bs : List Byte) : Prop :=
  let k := if isHost a then s.pasid part * 2 ^ 48 + a else a
  t.bytesAt (s.pasid part) a bs.length = bs ∧
  (∀ x, isHost a = true ∨ x < k ∨ k + bs.length ≤ x → t.byte x = s.byte x) ∧
  (∀ x, isHost a = false ∨ x < k ∨ k + bs.length ≤ x → lookD 0 t.hostMem x = lookD 0 s.hostMem x)

/-- n bytes at a lie outside a place: its address and its size. -/
def outsidePlace (place : Nat × Nat) (a n : Nat) : Prop := a + n ≤ place.1 ∨ place.1 + place.2 ≤ a
/-- n bytes at a lie outside every sealed record (R358, R370). -/
def State.OutsideRecords (s : State) (a n : Nat) : Prop :=
  (∀ x ∈ s.coreRecs, outsidePlace (coreRecPlace s x.1) a n) ∧ ∀ x ∈ s.evictRecs, outsidePlace (evictRecPlace s x.1) a n

/-! ### Engine commands (15) -/

/-- The command that the split under c submits to a queue with these words and capabilities (R300, R301). -/
def Ctx.command (c : Ctx) (queue : Nat) (words : List (BitVec 64)) (caps : Nat → Cap) : Engine :=
  let e : Engine :=
    { core := c.core, part := c.pid, gang := c.gid, block := c.g.block, queue := queue, words := words, src := Cap.null, dst := Cap.null,
      aux := Cap.null, stage := .accepted, row := 0, pos := 0, buf := [], lines := [], counter := 0, mates := [], shape := [], bar := none }
  { e with src := caps (e.bits 0 39 36), dst := caps (e.bits 0 43 40), aux := caps (e.bits 0 35 32) }

/-- The checks of R306 on a COPYTILE come to its shape record: those of orders 1 to 4, of its AUX CAP and of alignment have passed (R306, R308). -/
def Ctx.ReadsShape (c : Ctx) (queue : Nat) (slotted mayOpen : Bool) (e : Engine) : Prop :=
  e.kind = 3 ∧ e.earlyCode queue slotted mayOpen c.blk = none ∧ check14 e.aux 0 permR e.o1 32 = none ∧ e.aligned = true

/-- From u, the checks of R306 take the command as e' in u' with the test r of its shape record: any kind but COPYTILE as it is, and COPYTILE
with the record read once the earlier checks have passed (R308). -/
def Ctx.Shaped (c : Ctx) (u : State) (queue : Nat) (slotted mayOpen : Bool) (e : Engine) (u' : State) (e' : Engine) (r : Except Nat Unit) : Prop :=
  (e.kind ≠ 3 ∧ u' = u ∧ e' = e ∧ r = .ok ()) ∨
  (e.kind = 3 ∧ ¬c.ReadsShape queue slotted mayOpen e ∧ u' = u ∧ e' = e ∧ r = .error 0x0434) ∨
  (c.ReadsShape queue slotted mayOpen e ∧
    ((∃ w, u.readShape c.gid c.core c.pid e.aux e.o1 = (u', some (.ok w)) ∧
      e' = { e with shape := w } ∧ r = if (shapeBad w).isSome then .error 0x0434 else .ok ()) ∨
    ∃ code, u.readShape c.gid c.core c.pid e.aux e.o1 = (u', some (.error code)) ∧ e' = e ∧ r = .error code))

/-- The indices by which a GATHER or SCATTER into a scratchpad says at its acceptance which lines it will write: xs, in the state u' that their
reads leave; any other command reads none (R309, R315; log 95). -/
def State.NamesLines (u u' : State) (e : Engine) (xs : List Nat) : Prop :=
  if (e.kind = 0x10 ∨ e.kind = 0x11) ∧ e.dstSpace ≠ 0 then u.indices e e.count = (u', some xs) else u' = u ∧ xs = []

/-- t follows from u by the acceptance of a command (R300, R315), xs being its indices: it stands under the next id, the scratchpad lines that it
will write are empty, and a SEAL has taken the next save counter (R310). -/
structure Ctx.Accepts (c : Ctx) (u t : State) (e : Engine) (xs : List Nat) : Prop where
  rest : c.Completes { u with engines := t.engines, nextId := u.nextId + 1, blocks := t.blocks, contexts := t.contexts } t {} c.past
  command : ∃ n, look t.engines u.nextId = some { e with lines := u.allLines e xs, counter := n, bar := e.barrier u } ∧
    (e.kind ≠ 5 → t.contexts = u.contexts) ∧
    (e.kind = 5 → n = (u.context e.part).saveCounter + 1 ∧ (t.context e.part).saveCounter = n ∧
      ∀ p, p ≠ e.part → t.context p = u.context p)
  others : ∀ k, k ≠ u.nextId → look t.engines k = look u.engines k
  lines : ∀ id b, u.block id = some b → ∃ b', t.block id = some b' ∧ b' = { b with padEmpty := b'.padEmpty, padFar := b'.padFar, padWriters := b'.padWriters } ∧
    ∀ l, ((∃ n, (id, l, n) ∈ u.allLines e xs) → lookD false b'.padEmpty l = true) ∧
      ((∀ n, (id, l, n) ∉ u.allLines e xs) → lookD false b'.padEmpty l = lookD false b.padEmpty l)

/-- The queue registers of the gang under c are q. -/
def Ctx.withQ (c : Ctx) (q : Store QReg) : Ctx := { c with g := { c.g with q := q } }

/-- The mode that a trap of the split under c enters, but for HVCALL's (R355). -/
def Ctx.trapMode (c : Ctx) : Mode := if c.sp.mode = .h then .h else .s

/-- t follows from u by the end of a mailbox command with a status and bytes of MBDATA (R404). -/
def State.Ended (u t : State) (status : Nat) (data : List Byte) : Prop :=
  t = { u with fresh := t.fresh, mailbox := t.mailbox } ∧ t.mailbox.busy = false ∧ t.mailbox.run = none ∧
    t.mailbox.status = BitVec.ofNat 16 status ∧ t.mailbox.cmd = u.mailbox.cmd ∧ t.mailbox.args = u.mailbox.args ∧
    ∀ i, lookD 0 t.mailbox.data i = if i < data.length then data.getD i 0 else lookD 0 u.mailbox.data i

end Sys2Proof.Machine
end

