-- ==== Sys2Proof/Certificates/Slice0/Obligations.lean ====
section
/-! DEFINITION. The statements about the model. Each says in its docstring which rule of spec/ it formalises. A statement about an
instruction takes the view c of the split at issue (State.ctx), the conditions under which the instruction executes (Ctx.ready), and
says that exec answers a next state, what it holds, and what it leaves alone (Ctx.Completes). -/

open Sys2Proof Sys2Proof.Machine

noncomputable section

namespace Sys2Proof.Machine

/-- The fold of the values of lanes, lowest first. -/
def foldOf (f : Word → Word → Word) (x : Nat → Word) (ls : List Nat) : Word := (ls.drop 1).foldl (fun a l => f a (x l)) (x (ls.headD 0))

/-- The lane instructions of two sources, with their results by rounding mode. -/
def twoSourceRows : List ((Bool → Bool → Reg → Reg → Reg → Instr) × (Nat → Word → Word → Word)) :=
  [(.iadd, fun _ => (· + ·)), (.isub, fun _ => (· - ·)), (.imul, fun _ => (· * ·)), (.imulhI32, fun _ => iMulhS),
     (.imulhN32, fun _ => iMulhN), (.iminI32, fun _ => iMinS), (.iminN32, fun _ => iMinN), (.imaxI32, fun _ => iMaxS),
     (.imaxN32, fun _ => iMaxN), (.iaddsI32, fun _ => iAddS), (.isubsI32, fun _ => iSubS), (.iaddsN32, fun _ => iAddN),
     (.isubsN32, fun _ => iSubN), (.and_, fun _ => (· &&& ·)), (.or_, fun _ => (· ||| ·)), (.xor_, fun _ => (· ^^^ ·)),
     (.andn, fun _ => (fun a b => a &&& ~~~b)), (.shl, fun _ => (fun a b => shl a b.toNat)),
     (.shr, fun _ => (fun a b => shr a b.toNat)), (.sar, fun _ => (fun a b => sar a b.toNat)), (.rol, fun _ => rol),
     (.fmin, fun _ => (fun a b => w32 (f32.min a.toNat b.toNat))), (.fmax, fun _ => (fun a b => w32 (f32.max a.toNat b.toNat))),
     (.hminF16, fun _ => (halves2 f16.min))] ++
  [(.hmaxF16, fun _ => (halves2 f16.max)), (.hminBf16, fun _ => (halves2 bf16.min)), (.hmaxBf16, fun _ => (halves2 bf16.max)),
     (.fadd, (f32op f32.add)), (.fsub, (f32op f32.sub)), (.fmul, (f32op f32.mul)), (.fdiv, (f32op f32.div)),
     (.haddF16, (fun rm => halves2 (f16.add rm))), (.hsubF16, (fun rm => halves2 (f16.sub rm))),
     (.hmulF16, (fun rm => halves2 (f16.mul rm))), (.haddBf16, (fun rm => halves2 (bf16.add rm))),
     (.hsubBf16, (fun rm => halves2 (bf16.sub rm))), (.hmulBf16, (fun rm => halves2 (bf16.mul rm)))]

/-- The lane instructions of one source. -/
def oneSourceRows : List ((Bool → Reg → Reg → Instr) × (Nat → Word → Word)) :=
  [(.iabsI32, fun _ => iAbs), (.popc, fun _ => popc), (.clz, fun _ => clz), (.brev, fun _ => brev), (.mov, fun _ => id),
     (.sextI8, fun _ => sext8), (.sextI16, fun _ => sext16), (.zextN8, fun _ => zext8), (.zextN16, fun _ => zext16),
     (.fabs, fun _ => fabsBits), (.fneg, fun _ => fnegBits), (.frcp, fun _ => frcpOf), (.frsq, fun _ => frsqOf),
     (.fexp2, fun _ => fexp2Of), (.flog2, fun _ => flog2Of), (.fsin, fun _ => fsinOf), (.fcos, fun _ => fcosOf),
     (.cvtF32F16, fun _ => (fun a => w32 (reformat f16 f32 0 (a.toNat % 65536)))),
     (.cvtF32Bf16, fun _ => (fun a => w32 (reformat bf16 f32 0 (a.toNat % 65536)))), (.fsqrt, (fun rm a => w32 (f32.sqrt rm a.toNat))),
     (.cvtF32I32, cvtF32S), (.cvtF32N32, cvtF32N), (.cvtI32F32, cvtS), (.cvtN32F32, cvtN)] ++
  [(.cvtF16F32, (fun rm a => w32 (reformat f32 f16 rm a.toNat))), (.cvtBf16F32, (fun rm a => w32 (reformat f32 bf16 rm a.toNat))),
     (.frnd, frndBits)]

/-- The lane instructions of three sources. -/
def threeSourceRows : List ((Reg → Reg → Reg → Reg → Instr) × (Nat → Word → Word → Word → Word)) :=
  [(.imad, fun _ => (fun a b c => a * b + c)), (.bfi, fun _ => bfi),
     (.fmaF32, (fun rm a b c => w32 (f32.fma rm a.toNat b.toNat c.toNat))), (.hfmaF16, (fun rm => halves3 (f16.fma rm))),
     (.hfmaBf16, (fun rm => halves3 (bf16.fma rm)))]

/-- The compares of lanes. -/
def compareRows : List ((Bool → Bool → Reg → Reg → KReg → Instr) × (Word → Word → Bool)) :=
  [(.icmpEq, (· == ·)), (.icmpNe, (· != ·)), (.icmpLtI32, sltS), (.icmpLeI32, sleS), (.icmpLtN32, sltN), (.icmpLeN32, sleN),
     (.fcmpEq, fEq), (.fcmpNe, (fun a b => !fEq a b)), (.fcmpLt, fLt), (.fcmpLe, fLe), (.fcmpUn, fUn)]

/-- The lane instructions with an 11-bit immediate. -/
def immediateRows : List ((BitVec 11 → Bool → Reg → Reg → Instr) × (BitVec 11 → Word → Word)) :=
  [(.iaddi, fun imm a => a + immS imm), (.andi, fun imm a => a &&& immS imm), (.ori, fun imm a => a ||| immS imm),
     (.xori, fun imm a => a ^^^ immS imm), (.sloi, fun imm a => sloi a imm), (.imuli, fun imm a => a * immS imm)]
/-- The lane shifts by a 5-bit count. -/
def shiftRows : List ((BitVec 5 → Bool → Reg → Reg → Instr) × (BitVec 5 → Word → Word)) :=
  [(.shli, fun n a => shl a n.toNat), (.shri, fun n a => shr a n.toNat), (.sari, fun n a => sar a n.toNat)]

/-- The short forms with a flag: their operation, and how imm5 is extended. -/
def shortRows : List ((Bool → BitVec 5 → BitVec 5 → Instr) × (Word → Word → Word) × (BitVec 5 → Word)) :=
  [(.iaddShort, (· + ·), (BitVec.signExtend 32 ·)), (.isubShort, (· - ·), (BitVec.signExtend 32 ·)),
     (.imulShort, (· * ·), (BitVec.signExtend 32 ·)), (.andShort, (· &&& ·), (BitVec.signExtend 32 ·)),
     (.orShort, (· ||| ·), (BitVec.signExtend 32 ·)), (.xorShort, (· ^^^ ·), (BitVec.signExtend 32 ·)),
     (.shlShort, (fun a b => shl a b.toNat), (BitVec.zeroExtend 32 ·)),
     (.shrShort, (fun a b => shr a b.toNat), (BitVec.zeroExtend 32 ·)),
     (.sarShort, (fun a b => sar a b.toNat), (BitVec.zeroExtend 32 ·)), (.iminShort, iMinS, (BitVec.signExtend 32 ·)),
     (.imaxShort, iMaxS, (BitVec.signExtend 32 ·))]
/-- The short floating-point forms. -/
def shortFloatRows : List ((BitVec 5 → BitVec 5 → Instr) × (Word → Word → Word)) :=
  [(.faddShort, (f32op f32.add 0)), (.fsubShort, (f32op f32.sub 0)), (.fmulShort, (f32op f32.mul 0)),
     (.fmaxShort, (fun a b => w32 (f32.max a.toNat b.toNat)))]

/-- The uniform instructions of two sources. -/
def uniformRows : List ((Bool → Bool → Reg → Reg → Reg → Instr) × (Word → Word → Word)) :=
  [(.siadd, (· + ·)), (.sisub, (· - ·)), (.simul, (· * ·)), (.simulhI32, iMulhS), (.simulhN32, iMulhN), (.siminI32, iMinS),
     (.siminN32, iMinN), (.simaxI32, iMaxS), (.simaxN32, iMaxN), (.siaddsI32, iAddS), (.sisubsI32, iSubS), (.siaddsN32, iAddN),
     (.sisubsN32, iSubN), (.sand, (· &&& ·)), (.sor, (· ||| ·)), (.sxor, (· ^^^ ·)), (.sandn, (fun a b => a &&& ~~~b)),
     (.sshl, (fun a b => shl a b.toNat)), (.sshr, (fun a b => shr a b.toNat)), (.ssar, (fun a b => sar a b.toNat)), (.srol, rol),
     (.scmpEq, (fun a b => if (a == b) then 1 else 0)), (.scmpNe, (fun a b => if (a != b) then 1 else 0)),
     (.scmpLtI32, (fun a b => if sltS a b then 1 else 0))] ++
  [(.scmpLeI32, (fun a b => if sleS a b then 1 else 0)), (.scmpLtN32, (fun a b => if sltN a b then 1 else 0)),
     (.scmpLeN32, (fun a b => if sleN a b then 1 else 0))]
/-- The uniform instructions of one source. -/
def uniformOneRows : List ((Bool → Reg → Reg → Instr) × (Word → Word)) :=
  [(.siabsI32, iAbs), (.spopc, popc), (.sclz, clz), (.sbrev, brev)]
/-- The uniform instructions with an immediate. -/
def uniformImmRows : List ((BitVec 11 → Bool → Reg → Reg → Instr) × (BitVec 11 → Word → Word)) :=
  [(.siaddi, fun imm a => a + immS imm), (.ssloi, fun imm a => sloi a imm)]

/-- The pair instructions of two pairs. -/
def pairRows : List ((Bool → Bool → Reg → Reg → Reg → Instr) × (BitVec 64 → BitVec 64 → BitVec 64)) :=
  [(.iaddI64, (· + ·)), (.isubI64, (· - ·)), (.iminI64, min64), (.imaxI64, max64)]
/-- The pair shifts. -/
def pairShiftRows : List ((Bool → Bool → Reg → Reg → Reg → Instr) × (BitVec 64 → Nat → BitVec 64)) :=
  [(.shlI64, shl), (.shrN64, shr), (.sarI64, sar)]
/-- The widening products. -/
def pairMulRows : List ((Bool → Bool → Reg → Reg → Reg → Instr) × (Word → Word → BitVec 64)) :=
  [(.imulwI32, mulwS), (.imulwN32, mulwN)]

/-- The predicate operations of two sources. -/
def predicateRows : List ((KReg → KReg → KReg → Instr) × (Bool → Bool → Bool)) :=
  [(.kand, (fun x y => x && y)), (.kor, (fun x y => x || y)), (.kxor, (fun x y => x != y)), (.kandn, (fun x y => x && !y))]
/-- The lane moves: the number of the lane read, by group size, own number and selector. -/
def laneMoveRows : List ((Bool → Bool → Reg → Reg → Reg → Instr) × (Nat → Nat → Word → Int)) :=
  [(.lsel, (fun _ _ x => x.toNat)), (.lstep, (fun _ id x => id + x.toInt)), (.lstepW, (fun g id x => (id + x.toInt) % (g : Int))),
     (.lmirror, (fun _ id x => ((id ^^^ x.toNat : Nat) : Int)))]
/-- The predicate counts, by the lanes of P in the group and the lane's own number. -/
def predicateCountRows : List ((KReg → Reg → Instr) × (List Nat → Nat → Word)) :=
  [(.kmask, (fun p _ => p.foldl (fun m l => m ||| bit l) 0)), (.kcount, (fun p _ => BitVec.ofNat 32 p.length)),
     (.krank, (fun p id => BitVec.ofNat 32 (p.filter fun l => decide (l < id)).length))]
/-- The folds over lanes. -/
def foldRows : List ((Bool → Reg → Reg → Instr) × (Word → Word → Word)) :=
  [(.lfoldAdd, (· + ·)), (.lfoldMinI32, iMinS), (.lfoldMaxI32, iMaxS), (.lfoldAnd, (· &&& ·)), (.lfoldOr, (· ||| ·)),
     (.lfoldXor, (· ^^^ ·)), (.lfoldMinN32, iMinN), (.lfoldMaxN32, iMaxN)]

/-- The loads of the M format: whether through a quad, and how many registers. -/
def loadRows : List ((Bool → BitVec 7 → CReg → Reg → Reg → Instr) × Bool × Nat) :=
  [(.ld32, false, 1), (.ld64, false, 2), (.ld128, false, 4), (.ld32Quad, true, 1)]
/-- The stores of the M format. -/
def storeRows : List ((Bool → BitVec 7 → CReg → Reg → Reg → Instr) × Bool × Nat) :=
  [(.st32, false, 1), (.st64, false, 2), (.st128, false, 4), (.st32Quad, true, 1)]
/-- The loads of the X format: whether through a quad, signed, the bytes and the registers. -/
def loadXRows : List ((CReg → Reg → Reg → Instr) × Bool × Bool × Nat × Nat) :=
  [(.ldN8, false, false, 1, 1), (.ldI8, false, true, 1, 1), (.ldN16, false, false, 2, 1), (.ldI16, false, true, 2, 1),
     (.ldN8Quad, true, false, 1, 1), (.ldI8Quad, true, true, 1, 1), (.ldN16Quad, true, false, 2, 1), (.ldI16Quad, true, true, 2, 1),
     (.ld64Quad, true, false, 8, 2), (.ld128Quad, true, false, 16, 4)]
/-- The stores of the X format: whether through a quad, the bytes and the registers. -/
def storeXRows : List ((CReg → Reg → Reg → Instr) × Bool × Nat × Nat) :=
  [(.st8, false, 1, 1), (.st16, false, 2, 1), (.st8Quad, true, 1, 1), (.st16Quad, true, 2, 1), (.st64Quad, true, 8, 2),
     (.st128Quad, true, 16, 4)]
/-- The atomics and reductions: the operation, and whether it returns the old word. -/
def atomicRows : List ((CReg → Reg → Reg → Instr) × Nat × Bool) :=
  [(.atomAdd, 0, true), (.atomMinI32, 1, true), (.atomMaxI32, 2, true), (.atomMinN32, 3, true), (.atomMaxN32, 4, true),
     (.atomAnd, 5, true), (.atomOr, 6, true), (.atomXor, 7, true), (.atomSwap, 8, true), (.atomCas, 9, true), (.atomAddF32, 10, true),
     (.redAdd, 0, false), (.redMinI32, 1, false), (.redMaxI32, 2, false), (.redMinN32, 3, false), (.redMaxN32, 4, false),
     (.redAnd, 5, false), (.redOr, 6, false), (.redXor, 7, false), (.redAddF32, 10, false)]
/-- The scratchpad atomics: the operation. -/
def atomicPadRows : List ((Bool → Reg → Reg → Instr) × Nat) :=
  [(.atomsAdd, 0), (.atomsMinI32, 1), (.atomsMaxI32, 2), (.atomsMinN32, 3), (.atomsMaxN32, 4), (.atomsAnd, 5), (.atomsOr, 6),
     (.atomsXor, 7), (.atomsSwap, 8), (.atomsCas, 9), (.atomsAddF32, 10)]
/-- The capability fields that one s register takes. -/
def capFieldRows : List ((CReg → Reg → Instr) × (Cap → Nat)) :=
  [(.cgetPerm, (fun x => x.perm.toNat)), (.cgetType, Cap.type), (.cgetTag, (fun x => if x.tag then 1 else 0)),
     (.cgetColour, (fun x => x.colour.toNat)), (.cgetGen, (fun x => x.gen.toNat))]

end Sys2Proof.Machine

/-! ### Lane, uniform and predicate instructions (06 to 08): results, completion and frame -/

/-- R107, R112, R113, R137 to R142: every lane instruction of two sources writes its result in each live lane and nothing else. -/
def Says.TwoSourceLaneResults : Prop :=
  ∀ row ∈ twoSourceRows, ∀ (s : State) (c : Ctx) (pb pa : Bool) (b a d : Reg), s.ctx = some c →
    c.ready { srcs := [.v a.toNat 1 pa .a, .v b.toNat 1 pb .b], dsts := [.v d.toNat 1] } = true →
    ∃ t, exec (row.1 pb pa b a d) s = .next t ∧ c.Completes s t { v := [c.vk d.toNat] } c.past ∧
      ∀ l, c.Lane l → c.HoldsV t d.toNat l (row.2 c.rm (c.v a.toNat .a l) (c.v b.toNat .b l))

/-- R107, R112, R113, R122, R137 to R139, R144, R145: the same of one source. -/
def Says.OneSourceLaneResults : Prop :=
  ∀ row ∈ oneSourceRows, ∀ (s : State) (c : Ctx) (pa : Bool) (a d : Reg), s.ctx = some c →
    c.ready { srcs := [.v a.toNat 1 pa .a], dsts := [.v d.toNat 1] } = true →
    ∃ t, exec (row.1 pa a d) s = .next t ∧ c.Completes s t { v := [c.vk d.toNat] } c.past ∧
      ∀ l, c.Lane l → c.HoldsV t d.toNat l (row.2 c.rm (c.v a.toNat .a l))

/-- R117, R118, R140, R143: the lane instructions of the 4R format, of three sources and of two (BFE). -/
def Says.ThreeSourceLaneResults : Prop :=
  (∀ row ∈ threeSourceRows, ∀ (s : State) (c : Ctx) (x b a d : Reg), s.ctx = some c →
    c.ready { srcs := [.v a.toNat 1 false .none, .v b.toNat 1 false .none, .v x.toNat 1 false .none], dsts := [.v d.toNat 1] } = true →
    ∃ t, exec (row.1 x b a d) s = .next t ∧ c.Completes s t { v := [c.vk d.toNat] } c.past ∧
      ∀ l, c.Lane l → c.HoldsV t d.toNat l (row.2 c.rm (c.v a.toNat .none l) (c.v b.toNat .none l) (c.v x.toNat .none l))) ∧
  ∀ row ∈ [(Instr.bfeN32, bfeN), (Instr.bfeI32, bfeS)], ∀ (s : State) (c : Ctx) (b a d : Reg), s.ctx = some c →
    c.ready { srcs := [.v a.toNat 1 false .none, .v b.toNat 1 false .none], dsts := [.v d.toNat 1] } = true →
    ∃ t, exec (row.1 b a d) s = .next t ∧ c.Completes s t { v := [c.vk d.toNat] } c.past ∧
      ∀ l, c.Lane l → c.HoldsV t d.toNat l (row.2 (c.v a.toNat .none l) (c.v b.toNat .none l))

/-- R119: the pair instructions write the low word to the even register and the high word to the odd one. -/
def Says.PairResults : Prop :=
  (∀ row ∈ pairRows, ∀ (s : State) (c : Ctx) (pb pa : Bool) (b a d : Reg), s.ctx = some c →
    c.ready { wf := even a && even b && even d, srcs := [.v a.toNat 2 pa .a, .v b.toNat 2 pb .b], dsts := [.v d.toNat 2] } = true →
    ∃ t, exec (row.1 pb pa b a d) s = .next t ∧ c.Completes s t { v := [c.vk d.toNat, c.vk (d.toNat + 1)] } c.past ∧
      ∀ l, c.Lane l → c.HoldsPair t d.toNat l (row.2 (c.v2 a.toNat .a l) (c.v2 b.toNat .b l))) ∧
  (∀ row ∈ pairShiftRows, ∀ (s : State) (c : Ctx) (pb pa : Bool) (b a d : Reg), s.ctx = some c →
    c.ready { wf := even a && even d, srcs := [.v a.toNat 2 pa .a, .v b.toNat 1 pb .b], dsts := [.v d.toNat 2] } = true →
    ∃ t, exec (row.1 pb pa b a d) s = .next t ∧ c.Completes s t { v := [c.vk d.toNat, c.vk (d.toNat + 1)] } c.past ∧
      ∀ l, c.Lane l → c.HoldsPair t d.toNat l (row.2 (c.v2 a.toNat .a l) (c.v b.toNat .b l).toNat)) ∧
  (∀ row ∈ pairMulRows, ∀ (s : State) (c : Ctx) (pb pa : Bool) (b a d : Reg), s.ctx = some c →
    c.ready { wf := even d, srcs := [.v a.toNat 1 pa .a, .v b.toNat 1 pb .b], dsts := [.v d.toNat 2] } = true →
    ∃ t, exec (row.1 pb pa b a d) s = .next t ∧ c.Completes s t { v := [c.vk d.toNat, c.vk (d.toNat + 1)] } c.past ∧
      ∀ l, c.Lane l → c.HoldsPair t d.toNat l (row.2 (c.v a.toNat .a l) (c.v b.toNat .b l)))

/-- R116: SEL writes the first source where the predicate holds, and SEL.N where it does not; the other lanes that execute get the second
source. Every FUNCTION value is one of the two, with its k register. With k0 SEL copies the first source and SEL.N the second. The prefix
decides by itself whether a lane writes at all. -/
def Obligations.SelectChoosesByItsPredicate : Prop :=
  (∀ (n : Bool) (p : KReg) (pb pa : Bool) (b a d : Reg),
    decodeTableWord 32 (BitVec.ofBool n ++ p ++ BitVec.ofBool pb ++ BitVec.ofBool pa ++ b ++ a ++ d ++ 0x03#7 ++ 1#1 : Word).toNat =
      some (if n then .selN p pb pa b a d else .sel p pb pa b a d)) ∧
  ∀ (s : State) (c : Ctx) (n : Bool) (p : KReg) (pb pa : Bool) (b a d : Reg), s.ctx = some c →
    c.ready { srcs := [.v a.toNat 1 pa .a, .v b.toNat 1 pb .b, .k p.toNat], dsts := [.v d.toNat 1] } = true →
    (c.sp.only = 0 → ∀ l, c.Lane l ↔ l < 32 ∧ c.active.getLsbD l = true ∧ (c.g.kAt c.pfx.predicate.toNat l != c.pfx.negate) = true) ∧
    ∃ t, exec (if n then .selN p pb pa b a d else .sel p pb pa b a d) s = .next t ∧ c.Completes s t { v := [c.vk d.toNat] } c.past ∧
      (∀ l, c.Lane l → c.HoldsV t d.toNat l (if (c.g.kAt p.toNat l != n) = true then c.v a.toNat .a l else c.v b.toNat .b l)) ∧
      (p = 0 → ∀ l, c.Lane l → c.HoldsV t d.toNat l (if n then c.v b.toNat .b l else c.v a.toNat .a l))

/-- R114, R120: the immediate forms of the lane instructions. -/
def Says.ImmediateLaneResults : Prop :=
  (∀ row ∈ immediateRows, ∀ (s : State) (c : Ctx) (imm : BitVec 11) (pa : Bool) (a d : Reg), s.ctx = some c →
    c.ready { srcs := [.v a.toNat 1 pa .none], dsts := [.v d.toNat 1] } = true →
    ∃ t, exec (row.1 imm pa a d) s = .next t ∧ c.Completes s t { v := [c.vk d.toNat] } c.past ∧
      ∀ l, c.Lane l → c.HoldsV t d.toNat l (row.2 imm (c.v a.toNat .none l))) ∧
  (∀ row ∈ shiftRows, ∀ (s : State) (c : Ctx) (n : BitVec 5) (pa : Bool) (a d : Reg), s.ctx = some c →
    c.ready { srcs := [.v a.toNat 1 pa .none], dsts := [.v d.toNat 1] } = true →
    ∃ t, exec (row.1 n pa a d) s = .next t ∧ c.Completes s t { v := [c.vk d.toNat] } c.past ∧
      ∀ l, c.Lane l → c.HoldsV t d.toNat l (row.2 n (c.v a.toNat .none l))) ∧
  ∀ (s : State) (c : Ctx) (imm : BitVec 11) (d : Reg), s.ctx = some c → c.ready { dsts := [.v d.toNat 1] } = true →
    ∃ t, exec (.movi imm d) s = .next t ∧ c.Completes s t { v := [c.vk d.toNat] } c.past ∧
      ∀ l, c.Lane l → c.HoldsV t d.toNat l (imm.signExtend 32)

/-- R81, R82: the short forms; vd is the first source too, and the flag makes the second one an immediate. -/
def Says.ShortFormResults : Prop :=
  (∀ row ∈ shortRows, ∀ (s : State) (c : Ctx) (x d : BitVec 5), s.ctx = some c →
    (c.ready { srcs := [.v d.toNat 1 false .none], dsts := [.v d.toNat 1] } = true →
      ∃ t, exec (row.1 true x d) s = .next t ∧ c.Completes s t { v := [c.vk d.toNat] } c.past ∧
        ∀ l, c.Lane l → c.HoldsV t d.toNat l (row.2.1 (c.v d.toNat .none l) (row.2.2 x))) ∧
    (c.ready { srcs := [.v d.toNat 1 false .none, .v x.toNat 1 false .none], dsts := [.v d.toNat 1] } = true →
      ∃ t, exec (row.1 false x d) s = .next t ∧ c.Completes s t { v := [c.vk d.toNat] } c.past ∧
        ∀ l, c.Lane l → c.HoldsV t d.toNat l (row.2.1 (c.v d.toNat .none l) (c.v x.toNat .none l)))) ∧
  (∀ row ∈ shortFloatRows, ∀ (s : State) (c : Ctx) (x d : BitVec 5), s.ctx = some c →
    c.ready { srcs := [.v d.toNat 1 false .none, .v x.toNat 1 false .none], dsts := [.v d.toNat 1] } = true →
    ∃ t, exec (row.1 x d) s = .next t ∧ c.Completes s t { v := [c.vk d.toNat] } c.past ∧
      ∀ l, c.Lane l → c.HoldsV t d.toNat l (row.2 (c.v d.toNat .none l) (c.v x.toNat .none l))) ∧
  ∀ (s : State) (c : Ctx) (x d : BitVec 5), s.ctx = some c →
    (c.ready { srcs := [.v x.toNat 1 false .none], dsts := [.v d.toNat 1] } = true →
      ∃ t, exec (.movShort x d) s = .next t ∧ c.Completes s t { v := [c.vk d.toNat] } c.past ∧
        ∀ l, c.Lane l → c.HoldsV t d.toNat l (c.v x.toNat .none l)) ∧
    (c.ready { dsts := [.v d.toNat 1] } = true →
      ∃ t, exec (.moviShort x d) s = .next t ∧ c.Completes s t { v := [c.vk d.toNat] } c.past ∧
        ∀ l, c.Lane l → c.HoldsV t d.toNat l (x.signExtend 32))

/-- R56, R115, R141, R149: compares and predicate operations write k registers lane by lane; k0 stays as it is. -/
def Says.PredicateResults : Prop :=
  (∀ row ∈ compareRows, ∀ (s : State) (c : Ctx) (pb pa : Bool) (b a : Reg) (d : KReg), s.ctx = some c →
    c.ready { srcs := [.v a.toNat 1 pa .a, .v b.toNat 1 pb .b] } = true →
    ∃ t, exec (row.1 pb pa b a d) s = .next t ∧ c.Completes s t { k := if d = 0 then [] else [d.toNat] } c.past ∧
      (d ≠ 0 → ∀ l, c.Lane l → c.HoldsK t d.toNat l (row.2 (c.v a.toNat .a l) (c.v b.toNat .b l)))) ∧
  (∀ row ∈ predicateRows, ∀ (s : State) (c : Ctx) (kb ka kd : KReg), s.ctx = some c →
    c.ready { srcs := [.k ka.toNat, .k kb.toNat] } = true →
    ∃ t, exec (row.1 kb ka kd) s = .next t ∧ c.Completes s t { k := if kd = 0 then [] else [kd.toNat] } c.past ∧
      (kd ≠ 0 → ∀ l, c.Lane l → c.HoldsK t kd.toNat l (row.2 (c.g.kAt ka.toNat l) (c.g.kAt kb.toNat l)))) ∧
  ∀ (s : State) (c : Ctx) (ka kd : KReg), s.ctx = some c → c.ready { srcs := [.k ka.toNat] } = true →
    ∃ t, exec (.knot ka kd) s = .next t ∧ c.Completes s t { k := if kd = 0 then [] else [kd.toNat] } c.past ∧
      (kd ≠ 0 → ∀ l, c.Lane l → c.HoldsK t kd.toNat l (!c.g.kAt ka.toNat l))

/-- R124, R125: the uniform instructions execute once and write one s register, whatever the lanes. -/
def Says.UniformResults : Prop :=
  (∀ row ∈ uniformRows, ∀ (s : State) (c : Ctx) (pb pa : Bool) (b a d : Reg), s.ctx = some c →
    c.ready { srcs := [.s a.toNat 1 pa, .s b.toNat 1 pb], dsts := [.s d.toNat 1] } = true →
    ∃ t, exec (row.1 pb pa b a d) s = .next t ∧ c.Completes s t { s := [c.sk d.toNat] } c.past ∧
      c.HoldsS t d.toNat (row.2 (c.sv a.toNat) (c.sv b.toNat))) ∧
  (∀ row ∈ uniformOneRows, ∀ (s : State) (c : Ctx) (pa : Bool) (a d : Reg), s.ctx = some c →
    c.ready { srcs := [.s a.toNat 1 pa], dsts := [.s d.toNat 1] } = true →
    ∃ t, exec (row.1 pa a d) s = .next t ∧ c.Completes s t { s := [c.sk d.toNat] } c.past ∧ c.HoldsS t d.toNat (row.2 (c.sv a.toNat))) ∧
  (∀ row ∈ uniformImmRows, ∀ (s : State) (c : Ctx) (imm : BitVec 11) (pa : Bool) (a d : Reg), s.ctx = some c →
    c.ready { srcs := [.s a.toNat 1 pa], dsts := [.s d.toNat 1] } = true →
    ∃ t, exec (row.1 imm pa a d) s = .next t ∧ c.Completes s t { s := [c.sk d.toNat] } c.past ∧
      c.HoldsS t d.toNat (row.2 imm (c.sv a.toNat))) ∧
  (∀ (s : State) (c : Ctx) (imm : BitVec 11) (d : Reg), s.ctx = some c → c.ready { dsts := [.s d.toNat 1] } = true →
    ∃ t, exec (.smovi imm d) s = .next t ∧ c.Completes s t { s := [c.sk d.toNat] } c.past ∧ c.HoldsS t d.toNat (imm.signExtend 32)) ∧
  ∀ (s : State) (c : Ctx) (x b a d : Reg), s.ctx = some c →
    c.ready { srcs := [.s a.toNat 1 false, .s b.toNat 1 false, .s x.toNat 1 false], dsts := [.s d.toNat 1] } = true →
    ∃ t, exec (.simad x b a d) s = .next t ∧ c.Completes s t { s := [c.sk d.toNat] } c.past ∧
      c.HoldsS t d.toNat (c.sv a.toNat * c.sv b.toNat + c.sv x.toNat)

/-- R38, R127, R151, R152: lane moves read the lane their rule names, or the lane itself when the number lies outside the group;
predicate counts and the moves between v and s registers. -/
def Says.CrossLaneReadResults : Prop :=
  (∀ row ∈ laneMoveRows, ∀ (s : State) (c : Ctx) (pb pa : Bool) (b a d : Reg), s.ctx = some c →
    let number := fun l => row.2 c.groupSize (l % c.groupSize) (c.v b.toNat .none l)
    let from_ := fun l => if 0 ≤ number l ∧ number l < c.groupSize then l - l % c.groupSize + (number l).toNat else l
    c.ready { coll := true, srcs := [.v b.toNat 1 pb .none, .cross a.toNat pa fun _ l => from_ l], dsts := [.v d.toNat 1] } = true →
    ∃ t, exec (row.1 pb pa b a d) s = .next t ∧ c.Completes s t { v := [c.vk d.toNat] } c.past ∧
      ∀ l, c.Lane l → c.HoldsV t d.toNat l (c.g.vAt (c.vk a.toNat) (from_ l))) ∧
  (∀ row ∈ predicateCountRows, ∀ (s : State) (c : Ctx) (a : KReg) (d : Reg), s.ctx = some c →
    c.ready { coll := true, srcs := [.k a.toNat], dsts := [.v d.toNat 1] } = true →
    ∃ t, exec (row.1 a d) s = .next t ∧ c.Completes s t { v := [c.vk d.toNat] } c.past ∧
      ∀ l, c.Lane l → c.HoldsV t d.toNat l
        (row.2 (c.groupOf (c.live &&& maskOf fun x => c.g.kAt a.toNat x) l) (l % c.groupSize))) ∧
  (∀ (s : State) (c : Ctx) (a b : Reg), s.ctx = some c → c.ready { srcs := [.s a.toNat 1 false], dsts := [.v b.toNat 1] } = true →
    ∃ t, exec (.movVs a b) s = .next t ∧ c.Completes s t { v := [c.vk b.toNat] } c.past ∧
      ∀ l, c.Lane l → c.HoldsV t b.toNat l (c.sv a.toNat)) ∧
  (∀ (s : State) (c : Ctx) (a b : Reg), s.ctx = some c →
    c.ready { srcs := [.cross a.toNat false fun c _ => lowest c.active], dsts := [.s b.toNat 1] } = true →
    ∃ t, exec (.movSv a b) s = .next t ∧ c.Completes s t { s := [c.sk b.toNat] } c.past ∧
      c.HoldsS t b.toNat (c.v a.toNat .none (lowest c.active))) ∧
  ∀ (s : State) (c : Ctx) (n : BitVec 5) (a b : Reg), s.ctx = some c →
    c.ready { srcs := [.cross a.toNat false fun _ _ => n.toNat], dsts := [.s b.toNat 1] } = true →
    ∃ t, exec (.rdlane n a b) s = .next t ∧ c.Completes s t { s := [c.sk b.toNat] } c.past ∧ c.HoldsS t b.toNat (c.v a.toNat .none n.toNat)

/-- R153: LKIN finds each lane's kin, the active lanes of its group that hold the same bits in the source, itself among them, and writes
their number in bits 10 to 5, the lowest in bits 4 to 0, and 0 above. It takes no predicate, so the lanes that execute are the active ones. -/
def Obligations.KinAreCountedAndLed : Prop :=
  (∀ (pb pa : Bool) (b a d : Reg),
    decodeTableWord 32 (7#4 ++ BitVec.ofBool pb ++ BitVec.ofBool pa ++ b ++ a ++ d ++ 0x1C#7 ++ 1#1 : Word).toNat =
      if pb = false ∧ b = 0 then some (.lkin pa a d) else none) ∧
  ∀ (s : State) (c : Ctx) (pa : Bool) (a d : Reg), s.ctx = some c →
    c.ready { coll := true, srcs := [.v a.toNat 1 pa .none], dsts := [.v d.toNat 1] } = true →
    (∀ x, prefixOk x (prefixUse (.lkin pa a d)) = true → x.predicate = 0 ∧ x.negate = false) ∧
    (c.pfx.predicate = 0 → c.pfx.negate = false → c.sp.only = 0 → c.live = c.active) ∧
    ∃ t, exec (.lkin pa a d) s = .next t ∧ c.Completes s t { v := [c.vk d.toNat] } c.past ∧
      ∀ l, c.Lane l → ∃ (x : Word) (leader : Nat), c.HoldsV t d.toNat l x ∧
        let first := l - l % c.groupSize
        let kin := (List.range c.groupSize).filter fun i => c.live.getLsbD (first + i) && (c.v a.toNat .none (first + i) == c.v a.toNat .none l)
        l % c.groupSize ∈ kin ∧ x.extractLsb' 11 21 = 0 ∧ (x.extractLsb' 5 6).toNat = kin.length ∧ 1 ≤ kin.length ∧ kin.length ≤ c.groupSize ∧
        (x.extractLsb' 0 5).toNat = leader ∧ leader ∈ kin ∧ ∀ i ∈ kin, leader ≤ i

/-- R154: a fold over the live lanes of each group, in ascending order; half 1 of a compatibility-mode gang goes to the next register, and
a half without lanes leaves its register as it is. -/
def Says.LaneFoldResults : Prop :=
  ∀ row ∈ foldRows, ∀ (s : State) (c : Ctx) (pa : Bool) (a d : Reg), s.ctx = some c →
    c.ready { coll := true, srcs := [.v a.toNat 1 pa .none], also := fun c => !c.blk.hdr.compat || even d } = true →
    let groups := (if c.blk.hdr.compat then [(0, c.live &&& 0x0000FFFF), (1, c.live &&& 0xFFFF0000)] else [(0, c.live)]).filter (·.2 ≠ 0)
    (∀ x ∈ groups, c.g.sFull (c.sk (d.toNat + x.1)) = true) →
    ∃ t, exec (row.1 pa a d) s = .next t ∧ c.Completes s t { s := groups.map fun x => c.sk (d.toNat + x.1) } c.past ∧
      ∀ x ∈ groups, c.HoldsS t (d.toNat + x.1) (foldOf row.2 (c.v a.toNat .none) (lanesOf x.2))

/-- R146: the scale word and the codes of a block of 16, for elements of w magnitude bits. A NaN or an infinity gives X = 255 and codes 0.
Otherwise, in magnitudes of units of 2^-149: m is the largest; X is floor(log2 m) + 127, at least 0; the micro-shift of a quad is the largest j in
0..3 that is 0 or under which every magnitude of the quad lies below m / 2^j; and each code is the sign above the magnitude rounded to a unit of
2^(X - 127 - mu - (w - 1)), ties to even, and cut to w bits. -/
def Says.QuantComputes : Prop :=
  ∀ w ∈ [7, 4, 2], ∀ xs : List Word, xs.length = 16 →
    let x := fun i => xs.getD i 0
    let mag := fun i => magOf (x i)
    let q := quantBlock w xs
    (∀ i e n neg, f32.val (x i).toNat = .fin neg n e → mag i = n * 2 ^ (e + 149).toNat ∧ -149 ≤ e) ∧
    ((∃ i < 16, f32.isNan (x i).toNat = true ∨ f32.isInf (x i).toNat = true) → q = (255 * 256, List.replicate 16 0)) ∧
    ((∀ i < 16, f32.isNan (x i).toNat = false ∧ f32.isInf (x i).toNat = false) → ∃ (m e : Nat) (mu : Nat → Nat),
      (∀ i < 16, mag i ≤ m) ∧ (∃ i < 16, mag i = m) ∧ (m < 2 ^ 22 → e = 0) ∧ (2 ^ 22 ≤ m → 2 ^ (e + 22) ≤ m ∧ m < 2 ^ (e + 23)) ∧
      (∀ p < 4, mu p ≤ 3 ∧ (mu p = 0 ∨ ∀ k < 4, mag (4 * p + k) * 2 ^ mu p < m) ∧
        ∀ j ≤ 3, mu p < j → ∃ k < 4, m ≤ mag (4 * p + k) * 2 ^ j) ∧
      q.1 = e * 256 + mu 3 * 64 + mu 2 * 16 + mu 1 * 4 + mu 0 ∧
      ∀ i < 16, ∃ r, q.2.getD i 0 = (if (x i).msb then 2 ^ w else 0) + min r (2 ^ w - 1) ∧
        let unit := 2 ^ (e + 23 - mu (i / 4) - w)
        2 * r * unit ≤ 2 * mag i + unit ∧ 2 * mag i ≤ 2 * r * unit + unit ∧
          (2 * r * unit = 2 * mag i + unit ∨ 2 * mag i = 2 * r * unit + unit → r % 2 = 0))

/-- R147: what DEQ gives for an element of w magnitude bits with the scale word of a and the index of b: the canonical NaN under X = 255, +0 for
M = 0, and otherwise exactly ± M × 2^(X - 127 - mu - (w - 1)). -/
def Says.DeqComputes : Prop :=
  ∀ w ∈ [7, 4, 2], ∀ a b : Word,
    let scale := a.toNat / 2 ^ 16
    let m := a.toNat % 2 ^ w
    let mu := scale / 4 ^ (b.toNat % 16 / 4) % 4
    (scale / 256 = 255 → deq w a b = 0x7FC00000) ∧ (scale / 256 ≠ 255 → m = 0 → deq w a b = 0) ∧
    (scale / 256 ≠ 255 → m ≠ 0 → ∃ n e, f32.val (deq w a b).toNat = .fin (a.getLsbD w) n e ∧ -149 ≤ e ∧
      n * 2 ^ (e + 149).toNat = m * 2 ^ (scale / 256 + 23 - mu - w))

/-- R146, R147: QUANT converts each block of 16 lanes as a whole, and DEQ each lane's element; K2 has neither. -/
def Says.QuantResults : Prop :=
  Says.QuantComputes ∧ Says.DeqComputes ∧
  (∀ row ∈ [(Instr.quantSb7, 7), (Instr.quantSb4, 4), (Instr.quantSb2, 2)], ∀ (s : State) (c : Ctx) (pa : Bool) (a d : Reg),
    s.ctx = some c →
    c.ready { coll := true, k2 := false, dsts := [.v d.toNat 1],
              srcs := (List.range 16).map fun i => .cross a.toNat pa fun c l => c.srcLane .a (l / 16 * 16 + i) } = true →
    ∃ t, exec (row.1 pa a d) s = .next t ∧ c.Completes s t { v := [c.vk d.toNat] } c.past ∧
      ∀ l, c.Lane l →
        let q := quantBlock row.2 ((List.range 16).map fun i => c.v a.toNat .a (l / 16 * 16 + i))
        c.HoldsV t d.toNat l (BitVec.ofNat 32 (q.1 * 65536 + q.2.getD (l % 16) 0))) ∧
  ∀ row ∈ [(Instr.deqSb7, 7), (Instr.deqSb4, 4), (Instr.deqSb2, 2)], ∀ (s : State) (c : Ctx) (pb pa : Bool) (b a d : Reg),
    s.ctx = some c →
    c.ready { k2 := false, srcs := [.v a.toNat 1 pa .a, .v b.toNat 1 pb .b], dsts := [.v d.toNat 1] } = true →
    ∃ t, exec (row.1 pb pa b a d) s = .next t ∧ c.Completes s t { v := [c.vk d.toNat] } c.past ∧
      ∀ l, c.Lane l → c.HoldsV t d.toNat l (deq row.2 (c.v a.toNat .a l) (c.v b.toNat .b l))

/-! ### The step, fetch and decoding (04, R92, R245) -/

/-- R92, R35, R245, R334: where the agenda's next move issues a split whose bytes decode, the step is exec of the instruction they stand for, at the state
that holds the fetched code lines and the view of the issuing split; what is left of the agenda stands. A split that has issued in this clk, and one whose
sub-pipe is taken in it, stays as it is, as does one over which its quadrant picks another split for the sub-pipe. An instruction half done is fetched
as it was. The damper may hold a line access instead (R335). Of what it says, the model's choice, not the spec's: log 1. -/
def Obligations.StepRunsTheDecodedInstruction : Prop :=
  ∀ (s : State) (rest : List Move) (gid e : Nat) (stale : List Nat) (g : Gang) (sp : Split) (b : Block) (p : Part)
    (code : Store (List Byte)) (bs : List Byte) (d : Decoded),
    let s0 := { s with agenda := rest }
    let lines := if sp.only = 0 then stale else sp.code.map (·.1)
    s.agenda = .issue gid e stale :: rest → s.mayIssue gid e = true → s.gang gid = some g → look g.splits e = some sp → e < 4 →
    (∀ f x, f ≠ e → look g.splits f = some x → x.run = .ready → fusible sp x = true → sp.only = 0 → x.only ≠ 0) →
    s.block g.block = some b → s.part b.part = some p →
    s0.fetchAt gid b.core b.part p (g.codeCap sp.mode) (s.codeLenOf g sp b) lines sp.code sp.pc.toNat = .ok (code, bs) →
    decode bs = .ok d →
    let a := (g.codeCap sp.mode).at sp.pc.toNat
    let taken := s.pipeTaken (pickOf b.core gid g.seat sp.mask d.word)
    let t : State :=
      { ((s0.fetched b.part lines sp.code a bs.length).pageDone gid b.part a bs.length).updSplit gid e (fun x => { x with code := code }) with
        cur := { gang := gid, entry := e, pc := sp.pc, size := d.size, word := d.word, pfx := d.pfx, pfxWord := d.pfxWord }
        urgent := if s.urgent = some (gid, e) then none else s.urgent }
    (s.hasIssued gid sp.mask = true → step s = .next s0) ∧
    (s.hasIssued gid sp.mask = false → taken = true → step s = .next s0) ∧
    (s.hasIssued gid sp.mask = false → taken = false → (damped d.word = false ∨ s.dampHeld g = false ∨ s.urgent = some (gid, e)) →
      (s0.passedOver gid e t = true → step s = .next s0) ∧ (s0.passedOver gid e t = false → step s = exec d.instr t))

/-- R73, R74, R78, R172, R245: a split that holds no code line fetches the bytes that stand in memory at its program counter, as many as the instruction
there has. Of what it says, the model's choice, not the spec's: log 56. -/
def Obligations.FetchReadsTheBytesInMemory : Prop :=
  ∀ (s : State) (who core part : Nat) (p : Part) (cap : Cap) (codeLen off : Nat),
    off % 2 = 0 → 16 ≤ off → off + 8 ≤ 16 + codeLen → cap.tag = true → cap.type = 0 → cap.allows permX = true → cap.perm &&& permW = 0 →
    off + 8 ≤ cap.len → cap.flat + off + 8 ≤ 2 ^ 47 →
    (∀ i < 4, s.check67 p cap.colour cap.gen false (cap.flat + off + 2 * i) 2 = none ∧ s.poisoned (cap.flat + off + 2 * i) 2 = false) →
    let m := s.bytesAt 0 (cap.flat + off) 8
    let n := if (m.getD 0 0).getLsbD 0 = false then 2 else if (m.getD 0 0).extractLsb' 1 7 ≠ 0x3F then 4
      else if (m.getD 4 0).getLsbD 0 = false then 6 else 8
    ∃ code, s.fetchAt who core part p cap codeLen [] [] off = .ok (code, m.take n)

/-- R75 to R91: words written out from the spec's encodings decode to the instructions they stand for. -/
def Obligations.WrittenOutWordsDecode : Prop :=
  decodeTableWord 32 (0#4 ++ 0#1 ++ 0#1 ++ 3#6 ++ 2#6 ++ 1#6 ++ 0#7 ++ 1#1 : Word).toNat = some (.iadd false false 3 2 1) ∧
  decodeTableWord 32 (5#11 ++ 0#1 ++ 2#6 ++ 1#6 ++ 0x09#7 ++ 1#1 : Word).toNat = some (.iaddi 5 false 2 1) ∧
  decodeTableWord 32 (0#1 ++ 3#7 ++ 4#4 ++ 2#6 ++ 1#6 ++ 0x61#7 ++ 1#1 : Word).toNat = some (.ld32 false 3 4 2 1) ∧
  decodeTableWord 16 (0#1 ++ 2#5 ++ 1#5 ++ 0#4 ++ 0#1 : BitVec 16).toNat = some (.iaddShort false 2 1) ∧
  decodeTableWord 32 0 = none

/-- R75 to R91: every well-formed instruction that has an encoding decodes from its own bytes, whatever follows them, to itself; and so does every pair of
a prefix that suits it and its long word; what suits it before a word of major opcode 0x48 is R110's, not R127's. Of what it says, the model's choice,
not the spec's: log 19, 90. -/
def Obligations.DecodeInvertsEncode : Prop :=
  (∀ (i : Instr) (bs rest : List Byte), wellFormed i = true → encode i = some bs →
    ∃ d, decode (bs ++ rest) = .ok d ∧ d.instr = i ∧ d.size = bs.length ∧ d.pfx = none) ∧
  ∀ (p : Prefix) (i : Instr) (bs rest : List Byte), wellFormed i = true → encodePrefixed p i = some bs → prefixOk p (prefixUse i) = true →
    ∃ d, decode (bs ++ rest) = .ok d ∧ d.instr = i ∧ d.size = 8 ∧ d.pfx = some p

/-- R92 checks 1 and 2: bytes that stand for no instruction make every active lane of the split trap with cause 32. -/
def Says.UnassignedEncodingTraps : Prop :=
  ∀ (s : State) (rest : List Move) (gid e : Nat) (stale : List Nat) (g : Gang) (sp : Split) (b : Block) (p : Part)
    (code : Store (List Byte)) (bs : List Byte) (err : DecodeError),
    let s0 := { s with agenda := rest }
    let lines := if sp.only = 0 then stale else sp.code.map (·.1)
    s.agenda = .issue gid e stale :: rest → s.mayIssue gid e = true → s.gang gid = some g → look g.splits e = some sp → e < 4 →
    (∀ f x, f ≠ e → look g.splits f = some x → x.run = .ready → fusible sp x = true → sp.only = 0 → x.only ≠ 0) →
    s.block g.block = some b → s.part b.part = some p →
    s0.fetchAt gid b.core b.part p (g.codeCap sp.mode) (s.codeLenOf g sp b) lines sp.code sp.pc.toNat = .ok (code, bs) →
    decode bs = .error err → s.hasIssued gid sp.mask = false →
    ∃ c : Ctx, c.gid = gid ∧ c.e = e ∧ c.active = sp.mask ∧ c.pc = sp.pc ∧ step s = .next (c.trapAll 32 0 0 sp.pc) ∧ c.s.ctx = some c

/-! ### Traps (18) -/

/-- R355, R357: the entry of a trap that every active lane raises: the handler's split, its return record, and the frame. Of what it says, the model's
choice, not the spec's: log 34. -/
def Obligations.TrapEntryWritesFrameAndHandler : Prop :=
  ∀ (s : State) (c : Ctx) (cause addr detail : Nat) (resume : Word), s.ctx = some c → c.MayTrap s → cause < 256 → cause ≠ 65 →
    addr < 2 ^ 64 → detail < 2 ^ 64 →
    c.Enters s (c.trapAll cause addr detail resume) cause addr detail resume (if c.sp.mode = .h then .h else .s)

/-- R161: SYSCALL, HVCALL and BKPT take their traps with the resume address at the next instruction. -/
def Says.TrapInstructionsEnterHandlers : Prop :=
  ∀ (s : State) (c : Ctx) (n : BitVec 8), s.ctx = some c → c.MayTrap s →
    (∃ u, exec (.syscall n) s = .next u ∧ c.Enters s u 64 0 n.toNat c.next (if c.sp.mode = .h then .h else .s)) ∧
    (c.sp.mode ≠ .u → ∃ u, exec (.hvcall n) s = .next u ∧ c.Enters s u 65 0 n.toNat c.next .h) ∧
    ∃ u, exec .bkpt s = .next u ∧ c.Enters s u 66 0 0 c.next (if c.sp.mode = .h then .h else .s)

/-- R92 check 3, R67: a privileged instruction in a mode too low takes privilege cause 33, and the program counter stays the resume
address. A control register index of 0x300 or above takes it in every mode, whatever the destination and the source (R21, R67). -/
def Says.PrivilegedInstructionsTrap : Prop :=
  ∀ (s : State) (c : Ctx) (x a y : Reg) (b m : CReg) (n : BitVec 8) (idx : BitVec 12) (toS : Bool), s.ctx = some c → c.MayTrap s →
    (c.sp.mode = .u → ∀ i ∈ [Instr.croot x b, .hvcall n, .tret, .esign m a], ∃ u, exec i s = .next u ∧ c.Enters s u 33 0 0 c.pc .s) ∧
    (c.sp.mode ≠ .h → ∀ i ∈ [Instr.hcmd m a y, .sweep, .phalt a, .presume a, .resync a],
      ∃ u, exec i s = .next u ∧ c.Enters s u 33 0 0 c.pc .s) ∧
    ((0x100 ≤ idx.toNat ∧ c.sp.mode = .u) ∨ (0x200 ≤ idx.toNat ∧ c.sp.mode ≠ .h) →
      ∀ i ∈ [Instr.mfcr idx toS a, .mtcr idx a], ∃ u, exec i s = .next u ∧ c.Enters s u 33 0 0 c.pc .s) ∧
    (0x300 ≤ idx.toNat → ∀ i ∈ [Instr.mfcr idx toS a, .mtcr idx a], ∃ u, exec i s = .next u ∧ c.Enters s u 33 0 0 c.pc c.trapMode)

/-- R361: TRET, whose split's stack is empty and whose lanes have no access open, goes on at RESUME as the frame in memory holds it, in the
mode, depth and stack of the return record; the parts of a pending split that go on at the same program counter join it. When no lane is left in
the trap its record goes. It waits for the lanes' open accesses; a stack that is not empty is a trap of cause 35, and an odd RESUME one of cause 16;
and a seat record that the device may not reach halts the block and the partition (R442). Of what it says, the model's choice, not the spec's:
log 52 (the wait, where R360 asks for the earlier stores), 87, 109 (the address of an odd RESUME). -/
def Obligations.TrapReturnRestoresTheSplit : Prop :=
  ∀ (s : State) (c : Ctx), s.ctx = some c → c.active ≠ 0 → c.sp.mode ≠ .u →
    let resume : Word := BitVec.ofNat 32 (s.value (s.frameAt c.g (if c.sp.dbl then 0 else c.sp.depth) + 20) 4)
    (∀ r, c.sp.stack = [] → s.openFor c.gid c.active = false → s.seatOk c.g = true → look c.g.traps c.sp.trapKey = some r →
      resume.getLsbD 0 = false → (∀ q ∈ s.pendingParts c.gid r, q.1 = resume) →
      ∃ t, exec .tret s = .next t ∧ (∃ g, t.gang c.gid = some g ∧
        look g.splits c.e = some { c.sp with
          mask := c.active ||| (s.pendingParts c.gid r).foldl (fun m q => m ||| q.2) 0, pc := resume, mode := r.mode, depth := r.depth,
          dbl := false, stack := r.saved.getD [], code := [] } ∧
        (r.lanes &&& ~~~c.active = 0 → look g.traps c.sp.trapKey = none) ∧
        (r.lanes &&& ~~~c.active ≠ 0 → r.depth ≠ c.sp.trapKey →
          look g.traps c.sp.trapKey = some { r with lanes := r.lanes &&& ~~~c.active, saved := none, pending := none, wait := none }) ∧
        c.SameSplits g.splits [c.e] ∧ g.v = c.g.v ∧ g.k = c.g.k ∧ g.s = c.g.s ∧ g.c = c.g.c) ∧
        ∀ k, k ≠ c.gid → (t.gang k).map (·.splits) = (s.gang k).map (·.splits)) ∧
    (c.sp.stack ≠ [] → c.MayTrap s → ∃ u, exec .tret s = .next u ∧ c.Enters s u 35 0 0 c.pc c.trapMode) ∧
    (c.sp.stack = [] → s.openFor c.gid c.active = true → exec .tret s = .next s) ∧
    (c.sp.stack = [] → s.openFor c.gid c.active = false →
      (s.seatOk c.g = false → exec .tret s = .next (s.areaFailed c.gid)) ∧
      (resume.getLsbD 0 = true → c.MayTrap s → ∃ u, exec .tret s = .next u ∧ c.Enters s u 16 resume.toNat 0 c.pc c.trapMode))

/-- R58, R59, R92 checks 4 and 5, R37, R213: what keeps an instruction from executing, in the order of the checks. It traps with cause 32, 32 or
35; a waiting source that is empty leaves the state as it is; a source or predicate with an uncorrectable error is a containment fault of its lanes; a trapping
source empty in every active lane takes cause 40; and a destination still empty leaves the state as it is. Of what it says, the model's choice, not
the spec's: log 91. -/
def Says.UnreadyInstructionsTrapOrWait : Prop :=
  ∀ (s : State) (c : Ctx) (n : Needs) (body : Ctx → Act), s.ctx = some c → modeRank n.priv ≤ modeRank c.sp.mode →
    let named := n.wf && n.also c && n.srcs.all c.srcOk && n.dsts.all c.dstOk
    let waits := n.srcs.any fun x => !x.traps && c.emptyLanes x != 0
    let hit := n.srcs.foldl (fun m x => m ||| c.badLanes x) c.predBad
    (named = false → issue s n body = .next (c.trapAll 32 0 0 c.pc)) ∧
    (named = true → n.k2 = false → c.k2 = true → issue s n body = .next (c.trapAll 32 0 0 c.pc)) ∧
    (named = true → (n.k2 = true ∨ c.k2 = false) →
      (n.coll = true → c.converged = false → issue s n body = .next (c.trapAll 35 0 0 c.pc)) ∧
      ((n.coll = false ∨ c.converged = true) →
        (waits = true → issue s n body = .next s) ∧
        (waits = false → hit ≠ 0 → issue s n body = .next (c.poisonTrap hit)) ∧
        (waits = false → hit = 0 → (∃ x ∈ n.srcs, x.traps = true ∧ c.emptyLanes x = c.active ∧
            ∀ y ∈ n.srcs, c.emptyLanes y &&& ~~~c.active = 0) →
          issue s n body = .next (c.trapAll 40 0 0 c.pc)) ∧
        (waits = false → hit = 0 → c.active ≠ 0 → (∀ x ∈ n.srcs, c.emptyLanes x = 0) → (n.dsts.any (c.dstEmpty c.live)) = true →
          issue s n body = .next s)))

/-! ### Control flow (08, R32, R36, R155 to R160) -/

/-- R32, R155: BRT and BRF. Lanes that all go one way change the program counter only; otherwise the taken lanes form a split of the lowest
free entry, or go onto the stack when the table is full and the stack has room. -/
def Says.BranchesMoveLanes : Prop :=
  ∀ (s : State) (c : Ctx) (disp : BitVec 21) (k : KReg) (yes : Bool), s.ctx = some c → c.ready { srcs := [.k k.toNat] } = true →
    (yes = false → k ≠ 0) →
    let i := if yes then Instr.brt disp k else .brf disp k
    let taken := c.active &&& maskOf fun l => c.g.kAt k.toNat l == yes
    let target := c.pc + (disp.signExtend 32 <<< 1)
    (taken = c.active → ∃ t, exec i s = .next t ∧
      c.Moves s t fun x => look x c.e = some { c.past with pc := target } ∧ c.SameSplits x [c.e]) ∧
    (taken = 0 → ∃ t, exec i s = .next t ∧ c.Moves s t fun x => look x c.e = some c.past ∧ c.SameSplits x [c.e]) ∧
    (taken ≠ c.active → taken ≠ 0 → ∀ f, c.g.freeEntry = some f → ∃ t, exec i s = .next t ∧
      c.Moves s t fun x => look x c.e = some { c.past with mask := c.active &&& ~~~taken } ∧ c.SameSplits x [c.e, f] ∧
        look x f = some { Split.start taken target c.sp.mode c.sp.depth [] with
          dbl := c.sp.dbl, code := c.sp.code }) ∧
    (taken ≠ c.active → taken ≠ 0 → c.g.freeEntry = none → c.sp.stack.length < 4 → ∃ t, exec i s = .next t ∧
      c.Moves s t fun x => c.SameSplits x [c.e] ∧
        look x c.e = some { c.past with mask := c.active &&& ~~~taken, stack := ⟨target, taken⟩ :: c.sp.stack })

/-- R33: a push onto a full stack writes the oldest entry's eight bytes to the lowest spill slot without a valid entry, and the device keeps
its place, mode, depth and lanes. -/
def Says.FullStackSpillsItsOldestEntry : Prop :=
  ∀ (s : State) (gid e k : Nat) (g : Gang) (sp : Split) (a b c d x : StackEntry), s.gang gid = some g → look g.splits e = some sp →
    sp.stack = [a, b, c, d] → s.seatOk g = true → k < 32 → (∀ y ∈ g.spills, y.slot ≠ k) → (∀ j < k, ∃ y ∈ g.spills, y.slot = j) → e < 4 →
    sp.depth < 4 →
    let t := s.push gid e x
    let at_ := s.seatRecord g + 256 + 8 * k
    (∃ g', t.gang gid = some g' ∧ look g'.splits e = some { sp with stack := [x, a, b, c] } ∧
      g'.spills = { slot := k, entry := e, mode := sp.mode, depth := sp.depth, lanes := d.mask } :: g.spills) ∧
    t.value (at_ + 4) 4 = d.mask.toNat ∧
    t.value at_ 4 = e * 2 ^ 30 + bankOf sp.mode * 2 ^ 28 + sp.depth * 2 ^ 26 + 2 ^ 25 + d.pc.toNat % 2 ^ 25 ∧
    ∀ n, n < at_ ∨ at_ + 8 ≤ n → t.byte n = s.byte n

/-- R156, R157: CALL leaves the return address in v7 of each active lane. JMPR goes where its lanes say: those of the first even target, by lowest
lane, stay in the split, and those of each further one form a split of the lowest free entry or go onto the stack, in that order. Lanes with an odd
target take cause 16 with the target of the lowest of them; where all are odd they trap alone, and where some are, the handler takes the lowest free
entry and the others the next; with no entry free the handler takes the split's, and the lanes of the first even target are pending. -/
def Says.CallsAndIndirectJumps : Prop :=
  (∀ (s : State) (c : Ctx) (disp : BitVec 21), s.ctx = some c → c.ready { dsts := [.v 7 1] } = true →
    ∃ t, exec (.call disp) s = .next t ∧
      c.Completes s t { v := [c.vk 7] } { c.past with pc := c.pc + (disp.signExtend 32 <<< 1) } ∧
      ∀ l, c.Lane l → c.HoldsV t 7 l (c.pc + 4)) ∧
  ∀ (s : State) (c : Ctx) (a : Reg), s.ctx = some c → c.ready { srcs := [.v a.toNat 1 false .none] } = true →
    let odd := c.active &&& maskOf fun l => (c.v a.toNat .none l).getLsbD 0
    let goers := fun x => c.active &&& maskOf fun l => c.v a.toNat .none l == x
    let targets := (((lanesOf c.active).map (c.v a.toNat .none)).filter fun x => !x.getLsbD 0).eraseDups
    let free := (List.range 4).filter fun f => (look c.g.splits f).isNone
    (targets = [] → c.MayTrap s → ∃ u, exec (.jmpr a) s = .next u ∧
      c.Enters s u 16 (c.v a.toNat .none (lowest c.active)).toNat 0 c.pc c.trapMode) ∧
    ∀ x rest, targets = x :: rest →
      (odd = 0 → rest.length - free.length + c.sp.stack.length ≤ 4 → ∃ t, exec (.jmpr a) s = .next t ∧
        c.Moves s t fun z => c.Placed goers x rest free z ∧ c.SameSplits z (c.e :: free.take rest.length)) ∧
      (odd ≠ 0 → c.MayTrap s → rest.length - (free.length - 1) + c.sp.stack.length ≤ 4 →
        ∃ u g r, exec (.jmpr a) s = .next u ∧ u.gang c.gid = some g ∧ look g.traps (c.sp.depth + 1) = some r ∧
          r.mode = c.sp.mode ∧ r.depth = c.sp.depth ∧ r.lanes = odd ∧ (∀ k, k ≠ c.gid → u.gang k = s.gang k) ∧
          (let h := Split.start odd (if c.sp.mode = .h then s.htvec else c.part.tvec) c.trapMode (c.sp.depth + 1) []
          (∀ f more, free = f :: more → look g.splits f = some h ∧ c.Placed goers x rest more g.splits ∧ r.saved = none ∧ r.pending = none) ∧
          (free = [] → look g.splits c.e = some h ∧ r.pending = some (x, goers x) ∧
            r.saved = some ((rest.map fun y => ⟨y, goers y⟩).reverse ++ c.sp.stack))) ∧
          let f := s.frameAt c.g (c.sp.depth + 1)
          u.value f 8 = (c.v a.toNat .none (lowest odd)).toNat ∧ u.value (f + 8) 4 = odd.toNat ∧ u.value (f + 16) 4 = c.pc.toNat ∧
            u.value (f + 20) 4 = c.pc.toNat ∧ u.value (f + 24) 1 = 16 ∧ ∀ b, b < f ∨ f + 64 ≤ b → u.byte b = s.byte b)

/-- R36, R160, R164: JOIN in its four steps (with no entry of the split spilled), YIELD and IFENCE. -/
def Says.JoinYieldAndInstructionFence : Prop :=
  ∀ (s : State) (c : Ctx) (n : BitVec 8), s.ctx = some c → c.ready {} = true →
    let held := fun (x : Nat × Split) => x ∈ c.g.splits ∧ x.1 ≠ c.e ∧ fusible x.2 c.sp = true ∧ ∃ m, x.2.run = .held m
    (∀ f x, look c.g.splits f = some x → held (f, x) → (∀ y, held y → y = (f, x)) → x.stack = [] → c.sp.stack = [] → c.g.spills = [] →
      (∀ r ∈ c.g.traps, r.2.pending = none) → ∃ t, exec (.join n) s = .next t ∧ ∃ g, t.gang c.gid = some g ∧
        look g.splits (max c.e f) = none ∧ ∃ y, look g.splits (min c.e f) = some y ∧ y.mask = c.active ||| x.mask ∧ y.pc = c.next ∧
          y.run = .ready ∧ y.stack = []) ∧
    ((∀ x, ¬held x) → c.g.spills = [] →
      (∀ x r, c.sp.stack = x :: r → x.pc = c.next → ∃ t, exec (.join n) s = .next t ∧
        c.Moves s t fun z => look z c.e = some { c.sp with mask := c.active ||| x.mask, pc := c.next, stack := r } ∧
          c.SameSplits z [c.e]) ∧
      (∀ x r, c.sp.stack = x :: r → x.pc ≠ c.next → r.length < 3 → ∃ t, exec (.join n) s = .next t ∧
        c.Moves s t fun z => look z c.e = some { c.sp with
          mask := x.mask, pc := x.pc, stack := ⟨c.next, c.active⟩ :: r } ∧ c.SameSplits z [c.e]) ∧
      (c.sp.stack = [] → n ≠ 0 → ∃ t, exec (.join n) s = .next t ∧
        c.Moves s t fun z => look z c.e = some { c.sp with run := .held n.toNat } ∧ c.SameSplits z [c.e]) ∧
      (c.sp.stack = [] → n = 0 → ∃ t, exec (.join n) s = .next t ∧
        c.Moves s t fun z => look z c.e = some c.past ∧ c.SameSplits z [c.e])) ∧
    (∃ t, exec .yield s = .next t ∧ c.Moves s t fun z => c.SameSplits z [c.e] ∧
      ∃ owed, look z c.e = some { c.sp with pc := c.next, run := .yielding (s.clk.toNat + 64) owed } ∧
        ∀ x, x ∈ owed ↔ ∃ g e y, (x.1, g) ∈ s.gangs ∧ s.coreOf g = c.core ∧ (e, y) ∈ g.splits ∧ s.mayIssue x.1 e = true ∧
          (x.1, e) ≠ (c.gid, c.e) ∧ x.2.1 = lowest y.mask ∧ x.2.2 = g.ticks.getD (lowest y.mask) 0) ∧
    (s.acquiring c.gid c.active = false → ∃ t, exec .ifence s = .next t ∧
      c.Moves s t fun z => look z c.e = some { c.past with code := [] } ∧ c.SameSplits z [c.e])

/-- R34, R159, R354, R362: EXIT of a split whose lanes have nothing outstanding: the lanes have exited; a split with a stack goes on with its top entry,
and one without leaves its table entry free. Lanes that stand in a trap leave it; with its last lane the trap ends, and the freed entry goes to its pending
split, or else to the top of the saved stack. While an access is outstanding the split waits. No memory and no v, k or c register of the gang changes.
Of what it says, the model's choice, not the spec's: log 7. -/
def Says.ExitEndsOrResumesTheSplit : Prop :=
  ∀ (s : State) (c : Ctx), s.ctx = some c → c.ready {} = true →
    (s.outstanding c.gid c.active = true → exec .exit_ s = .next s) ∧
    (s.outstanding c.gid c.active = false →
      let kept := fun (t : State) (g : Gang) => t.mem = s.mem ∧ t.gang c.gid = some g ∧ g.exited = c.g.exited ||| c.active ∧ g.v = c.g.v ∧
        g.k = c.g.k ∧ g.c = c.g.c
      (c.g.traps = [] → c.sp.stack = [] → ∃ t g, exec .exit_ s = .next t ∧ kept t g ∧ look g.splits c.e = none) ∧
      (c.g.traps = [] → c.g.spills = [] → ∀ x r, c.sp.stack = x :: r → ∃ t g, exec .exit_ s = .next t ∧ kept t g ∧
        ∃ y, look g.splits c.e = some y ∧ y.mask = x.mask ∧ y.pc = x.pc ∧ y.stack = r ∧ y.run = .ready) ∧
      ∀ d r, c.g.traps = [(d, r)] → d ∈ [1, 2, 3, 4] → c.active &&& ~~~r.lanes = 0 → c.sp.stack = [] → c.g.spills = [] →
        let left := r.lanes &&& ~~~c.active
        ∃ t g, exec .exit_ s = .next t ∧ kept t g ∧
          (left ≠ 0 → (∃ y, look g.traps d = some y ∧ y.lanes = left) ∧ (r.pending = none → look g.splits c.e = none)) ∧
          (left = 0 → look g.traps d = none ∧
            (∀ pc m, r.pending = some (pc, m) → ∃ y, look g.splits c.e = some y ∧ y.mask = m ∧ y.stack = r.saved.getD [] ∧ y.mode = r.mode ∧
              y.depth = r.depth ∧ (r.wait = none → y.pc = pc ∧ y.run = .ready)) ∧
            (∀ x rest, r.pending = none → r.saved = some (x :: rest) →
              look g.splits c.e = some (Split.start x.mask x.pc r.mode r.depth rest)) ∧
            (r.pending = none → r.saved.getD [] = [] → look g.splits c.e = none)))

/-! ### Control registers (03, R67 to R71, R393) -/

/-- R57, R67 to R69: MFCR of a listed register writes its value of this clk at once, or, for a slow read, empties the destination until
the value arrives; a low-half read latches the high half for the gang. -/
def Says.ControlRegisterReads : Prop :=
  ∀ (s : State) (c : Ctx) (idx : BitVec 12) (b : Reg), s.ctx = some c → idx.toNat < 0x300 → crListed idx.toNat = true →
    let latched := { c.g with
      clkHi := if idx = 8 then s.clk.extractLsb' 32 32 else c.g.clkHi
      enHi := if idx = 0x131 then c.energy.extractLsb' 32 32 else c.g.enHi }
    let c' := { c with g := latched }
    (c.ready { priv := crMode idx.toNat, dsts := [.v b.toNat 1] } = true → ∃ t, exec (.mfcr idx false b) s = .next t ∧
      (crSlow idx.toNat = false → c.Completes s t { v := [c.vk b.toNat] } c.past ∧
        ∀ l, c.Lane l → c.HoldsV t b.toNat l (c.cr idx.toNat l)) ∧
      (crSlow idx.toNat = true → (∀ l, c.Lane l → c.EmptyV t b.toNat l) ∧
        c'.Completes (s.sent ((lanesOf c.live).map fun l =>
          { c.req s.nextId l .onCore 0 4 Cap.null [.v (c.vk b.toNat)] with stage := .replied [c.cr idx.toNat l] false, acq := false }))
          t { v := [c.vk b.toNat] } c.past)) ∧
    (c.ready { priv := crMode idx.toNat, dsts := [.s b.toNat 1] } = true → ∃ t, exec (.mfcr idx true b) s = .next t ∧
      (crSlow idx.toNat = false → c.Completes s t { s := [c.sk b.toNat] } c.past ∧
        c.HoldsS t b.toNat (c.cr idx.toNat (lowest c.active))) ∧
      (crSlow idx.toNat = true → c.EmptyS t b.toNat ∧
        c'.Completes (s.sent [{ c.req s.nextId 32 .onCore 0 4 Cap.null [.s (c.sk b.toNat)] with
          stage := .replied [c.cr idx.toNat (lowest c.active)] false, acq := false }]) t { s := [c.sk b.toNat] } c.past))

/-- R68, R70, R391: MTCR writes the register its index names, and PSNAP reads PERF0 to PERF15 at one clk. -/
def Says.ControlRegisterWrites : Prop :=
  (∀ (s : State) (c : Ctx) (idx : BitVec 12) (a : Reg) (m : Mode), s.ctx = some c → idx.toNat < 0x300 → crWriter idx.toNat = some m →
    c.ready { priv := if modeRank m < modeRank (crMode idx.toNat) then crMode idx.toNat else m, srcs := [.s a.toNat 1 false] } = true →
    crValueOk idx.toNat (c.sv a.toNat) = true →
    ∃ t, exec (.mtcr idx a) s = .next t ∧ c.Completes (c.writeCr idx.toNat (c.sv a.toNat)) t {} c.past) ∧
  (∀ (s : State) (c : Ctx) (x : Word), s.ctx = some c →
    ((c.writeCr 0x101 x).part c.pid).map (·.tvec) = some x ∧ ((c.writeCr 0x103 x).part c.pid).map (·.savebase) = some x ∧
    (c.writeCr 0x201 x).htvec = x ∧ lookD 0 ((c.writeCr 0x107 x).core c.core).sliceclk c.pid = x ∧
    ((c.writeCr 0x210 x).core c.core).softerr = x ∧ ((c.writeCr 0x0B 0).block c.g.block).map (·.accstat) = some false ∧
    ∀ i < 16, lookD 0 ((c.writeCr (0x20 + i) x).core c.core).perf (c.pid * 16 + i) = x ∧
      lookD 0 ((c.writeCr (0x120 + i) x).core c.core).perfsel (c.pid * 16 + i) = x.extractLsb' 0 8) ∧
  ∀ (s : State) (c : Ctx) (b : Reg), s.ctx = some c → c.ready { wf := b == 0 || b == 16 || b == 32, dsts := [.s b.toNat 16] } = true →
    ∃ t, exec (.psnap b) s = .next t ∧ c.Completes s t { s := (List.range 16).map fun i => c.sk (b.toNat + i) } c.past ∧
      ∀ i < 16, c.HoldsS t (b.toNat + i) (lookD 0 (s.core c.core).perf (c.pid * 16 + i))

/-- R67: the checks of MFCR and MTCR in their order, for an index below 0x300 in the issuing mode's range: one that is not listed is illegal, as is a
write of a register that no mode may write; a write that a higher mode may make is privileged; a write of a value with a non-zero reserved bit is
illegal. Nothing is written. -/
def Says.ControlRegisterChecks : Prop :=
  ∀ (s : State) (c : Ctx) (idx : BitVec 12) (a : Reg), s.ctx = some c → c.MayTrap s → idx.toNat < 0x300 →
    modeRank (crMode idx.toNat) ≤ modeRank c.sp.mode →
    let illegal := fun i => ∃ u, exec i s = .next u ∧ c.Enters s u 32 0 0 c.pc c.trapMode
    (crListed idx.toNat = false → (∀ toS, illegal (.mfcr idx toS a)) ∧ illegal (.mtcr idx a)) ∧
    (crWriter idx.toNat = none → illegal (.mtcr idx a)) ∧
    (∀ m, crWriter idx.toNat = some m → modeRank c.sp.mode < modeRank m → ∃ u, exec (.mtcr idx a) s = .next u ∧ c.Enters s u 33 0 0 c.pc .s) ∧
    (∀ m, crWriter idx.toNat = some m → c.ready { priv := m, srcs := [.s a.toNat 1 false] } = true →
      ((idx = 0x00B ∧ 2 ≤ (c.sv a.toNat).toNat) ∨ ((idx = 0x101 ∨ idx = 0x201) ∧ (c.sv a.toNat).getLsbD 0 = true) ∨
        (0x120 ≤ idx.toNat ∧ idx.toNat ≤ 0x12F ∧ 2 ^ 8 ≤ (c.sv a.toNat).toNat) → illegal (.mtcr idx a)))

/-! ### Memory access at issue (11, R171 to R173, R217 to R231) -/

/-- R57, R171, R173, R201, R202, R217 to R220: the loads, lane by lane. Each live lane's checks pass here; an instruction that an earlier acquire of its
lanes holds up stays at its place (R234, R236), as does one that waits for an acquire of its split to invalidate the L1 (R201). Of what it says, the model's choice, not the spec's: log 25, 26. -/
def Obligations.LoadsEmptyAndRequest : Prop :=
  (∀ row ∈ loadRows, ∀ (s : State) (c : Ctx) (po : Bool) (disp : BitVec 7) (base : CReg) (o d : Reg), s.ctx = some c →
    let n := row.2.2
    let cap := c.laneCap row.2.1 base
    let off := fun l => ((c.v o.toNat .none l).toNat : Int) + disp.toInt * (4 * n)
    c.ready { wf := multiple n d, srcs := .v o.toNat 1 po .none :: quadSrc row.2.1 base po, dsts := [.v d.toNat n] } = true →
    (c.loadWait = true → exec (row.1 po disp base o d) s = .next s) ∧
    (c.loadWait = false → (∀ l, c.Lane l → check15 (cap l) permR (off l) (4 * n) (4 * n) = none) →
      ∃ t, exec (row.1 po disp base o d) s = .next t ∧
        c.Loads s t ((List.range n).map (d.toNat + ·)) (4 * n) (fun _ => .load false (c.pfx.scope == 0)) false true cap off)) ∧
  (∀ row ∈ loadXRows, ∀ (s : State) (c : Ctx) (base : CReg) (a b : Reg), s.ctx = some c →
    let (quadForm, signed, size, n) := row.2
    let cap := c.laneCap quadForm base
    let off := fun l => ((c.v a.toNat .none l).toNat : Int) + 0
    c.ready { wf := multiple n b, srcs := .v a.toNat 1 false .none :: quadSrc quadForm base false, dsts := [.v b.toNat n] } = true →
    (c.loadWait = true → exec (row.1 base a b) s = .next s) ∧
    (c.loadWait = false → (∀ l, c.Lane l → check15 (cap l) permR (off l) size size = none) → ∃ t, exec (row.1 base a b) s = .next t ∧
      c.Loads s t ((List.range n).map (b.toNat + ·)) size (fun _ => .load signed (c.pfx.scope == 0)) signed true cap off)) ∧
  (∀ (s : State) (c : Ctx) (po : Bool) (disp : BitVec 7) (base : CReg) (o d : Reg), s.ctx = some c →
    let cap := fun _ => c.cv base.toNat
    let off := fun l => ((c.v o.toNat .none l).toNat : Int) + disp.toInt * 16
    c.ready { wf := quad d, srcs := [.v o.toNat 1 po .none, .c base.toNat], dsts := [.v d.toNat 4] } = true → c.loadWait = false →
    (∀ l, c.Lane l → check15 (cap l) permR (off l) 16 16 = none) → ∃ t, exec (.cld po disp base o d) s = .next t ∧
      c.Loads s t ((List.range 4).map (d.toNat + ·)) 16 (fun x => .loadCap (x.allows permLC)) false false cap off) ∧
  ∀ (s : State) (c : Ctx) (po : Bool) (disp : BitVec 7) (base : CReg) (o d : Reg), s.ctx = some c →
    let x := c.cv base.toNat
    let off := ((c.sv o.toNat).toNat : Int) + disp.toInt * 4
    c.ready { srcs := [.s o.toNat 1 po, .c base.toNat], dsts := [.s d.toNat 1] } = true → c.loadWait = false → check15 x permR off 4 4 = none →
    ∃ t, exec (.ldu32 po disp base o d) s = .next t ∧ c.EmptyS t d.toNat ∧
      c.Completes (c.countLines (s.sent [c.loadReq (.load false (c.pfx.scope == 0)) 4 false true x off [.s (c.sk d.toNat)] 32]) [(x, x.at off)])
        t { s := [c.sk d.toNat] } (if isHost (x.at off) then { c.past with run := .parked .host } else c.past)

/-- R230, R231: which words of a shape record fail their tests, and that the lowest is reported. -/
def Says.ShapeTests : Prop :=
  ∀ w : List Word, w.length = 8 →
    let x := fun i => (w.getD i 0).toNat
    let fmt := x 6 % 16
    let sb := fmt = 4 ∨ fmt = 5 ∨ fmt = 6
    let bits := if fmt = 1 ∨ fmt = 2 then 16 else if fmt = 3 then 32 else if fmt = 4 ∨ fmt = 7 then 8 else if fmt = 5 then 5 else 3
    let unit := if sb then 128 else bits / 8
    let rowSize := if sb then 128 * ((x 3 * bits + 1023) / 1024) else (x 3 * bits + 7) / 8
    let fails6 := 16 ≤ x 6 ∨ fmt = 0 ∨ 7 < fmt
    let fails3 := 2 ^ 24 ≤ x 3 ∨ x 3 = 0 ∨ (¬fails6 ∧ sb ∧ x 3 % 16 ≠ 0)
    let rows := x 5 / 2 ^ 16
    let cols := x 5 % 2 ^ 16
    let fails : Nat → Prop := fun i =>
      match i with
      | 0 => x 0 % 16 ≠ 0
      | 1 => 2 ^ 8 ≤ x 1
      | 2 => ¬fails6 ∧ ¬fails3 ∧ (x 2 % unit ≠ 0 ∨ x 2 < rowSize)
      | 3 => fails3
      | 4 => 2 ^ 24 ≤ x 4 ∨ x 4 = 0
      | 5 => rows = 0 ∨ 64 < rows ∨ cols = 0 ∨ 256 < cols ∨ (¬fails6 ∧ ((sb ∧ cols % 16 ≠ 0) ∨ 1024 < cols * bits))
      | 6 => fails6
      | _ => x 7 ≠ 0
    (shapeBad w = none ↔ ∀ i < 8, ¬fails i) ∧ ∀ i, shapeBad w = some i ↔ i < 8 ∧ fails i ∧ ∀ j < i, ¬fails j

/-- R171, R173, R217, R218, R220, R223, R231: the stores put one request per live lane in flight, to the address and with the bytes that the rules give;
no register changes, and no memory until the home slice. CST through a capability to the host window traps with cause 3. SHAPE whose record fails a
test of R231 traps with cause 52 and the lowest word that fails. Of what it says, the model's choice, not
the spec's: log 25, 26. -/
def Obligations.StoresRequestAndKeepRegisters : Prop :=
  Says.ShapeTests ∧
  (∀ row ∈ storeRows, ∀ (s : State) (c : Ctx) (po : Bool) (disp : BitVec 7) (base : CReg) (o d : Reg), s.ctx = some c →
    let n := row.2.2
    let cap := c.laneCap row.2.1 base
    let off := fun l => ((c.v o.toNat .none l).toNat : Int) + disp.toInt * (4 * n)
    c.ready { wf := multiple n d, srcs := .v o.toNat 1 po .none :: .v d.toNat n false .none :: quadSrc row.2.1 base po } = true →
    (c.mustWait = true → exec (row.1 po disp base o d) s = .next s) ∧
    (c.mustWait = false → (∀ l, c.Lane l → check15 (cap l) permW (off l) (4 * n) (4 * n) = none) →
      ∃ t, exec (row.1 po disp base o d) s = .next t ∧
        let rs := (lanesOf c.live).map fun l =>
          c.req s.nextId l (.store (c.regBytes d.toNat n l)) ((cap l).at (off l)) (4 * n) (cap l) []
        (c.released rs).Completes (s.sent rs) t {} c.past)) ∧
  (∀ row ∈ storeXRows, ∀ (s : State) (c : Ctx) (base : CReg) (a b : Reg), s.ctx = some c →
    let (quadForm, size, n) := row.2
    let cap := c.laneCap quadForm base
    let off := fun l => ((c.v a.toNat .none l).toNat : Int) + 0
    c.ready { wf := multiple n b, srcs := .v a.toNat 1 false .none :: .v b.toNat n false .none :: quadSrc quadForm base false } = true →
    (c.mustWait = true → exec (row.1 base a b) s = .next s) ∧
    (c.mustWait = false → (∀ l, c.Lane l → check15 (cap l) permW (off l) size size = none) → ∃ t, exec (row.1 base a b) s = .next t ∧
      let rs := (lanesOf c.live).map fun l =>
        c.req s.nextId l (.store ((c.regBytes b.toNat n l).take size)) ((cap l).at (off l)) size (cap l) []
      (c.released rs).Completes (s.sent rs) t {} c.past)) ∧
  (∀ (s : State) (c : Ctx) (po : Bool) (disp : BitVec 7) (base : CReg) (o d : Reg), s.ctx = some c →
    let x := c.cv base.toNat
    let off := fun l => ((c.v o.toNat .none l).toNat : Int) + disp.toInt * 16
    let data := fun l => c.g.quadAt (c.vk d.toNat) l
    let chk := fun l => check15 x (if (data l).tag then permW ||| permSC else permW) (off l) 16 16
    c.ready { wf := quad d, srcs := [.v o.toNat 1 po .none, .v d.toNat 4 false .none, .c base.toNat] } = true → c.mustWait = false →
    (isHost x.flat = false → (∀ l, c.Lane l → chk l = none) → ∃ t, exec (.cst po disp base o d) s = .next t ∧
      let rs := (lanesOf c.live).map fun l => c.req s.nextId l (.storeCap (data l)) (x.at (off l)) 16 x []
      (c.released rs).Completes (s.sent rs) t {} c.past) ∧
    (isHost x.flat = true → x.tag = true → x.type = 0 → c.live ≠ 0 → c.MayTrap s →
      ∃ t g r, exec (.cst po disp base o d) s = .next t ∧ t.reqs.map (·.1) = s.reqs.map (·.1) ∧ t.gang c.gid = some g ∧ g.v = c.g.v ∧ g.c = c.g.c ∧
        look g.traps (c.sp.depth + 1) = some r ∧ r.lanes = c.live ∧
        let fr := s.frameAt c.g (c.sp.depth + 1)
        let l := lowest c.live
        t.value fr 8 = (match chk l with | some (_, a) => a | none => x.at (off l)) ∧ t.value (fr + 8) 4 = c.live.toNat ∧
          t.value (fr + 24) 1 = 3 ∧ ∀ b, b < fr ∨ fr + 64 ≤ b → t.byte b = s.byte b)) ∧
  (∀ (s : State) (c : Ctx) (base : CReg) (a : Reg), s.ctx = some c → c.ready { srcs := [.v a.toNat 1 false .none, .c base.toNat] } = true →
    let x := c.cv base.toNat
    let off := fun l => ((c.v a.toNat .none l).toNat : Int) + 0
    ∃ t, exec (.prefetch base a) s = .next t ∧
      c.Completes (s.sent (((lanesOf c.live).filter fun l => (check14 x 0 permR (off l) 1).isNone).map fun l =>
        c.req s.nextId l .prefetch (x.at (off l)) 1 x [])) t {} c.past) ∧
  ∀ (s : State) (c : Ctx) (base : CReg) (a b : Reg), s.ctx = some c →
    let x := c.cv base.toNat
    let off := ((c.sv a.toNat).toNat : Int)
    let words := (List.range 8).map fun i => c.sv (b.toNat + i)
    c.ready { wf := multiple 8 b, srcs := [.s a.toNat 1 false, .s b.toNat 8 false, .c base.toNat] } = true → c.mustWait = false →
    check15 x permW off 32 32 = none →
    (shapeBad words = none → ∃ t, exec (.shape base a b) s = .next t ∧
      let rs := [c.req s.nextId 32 (.store (words.flatMap fun w => leBytes 4 w.toNat)) (x.at off) 32 x []]
      (c.released rs).Completes (s.sent rs) t {} c.past) ∧
    ∀ i, shapeBad words = some i → c.MayTrap s → ∃ u, exec (.shape base a b) s = .next u ∧
      c.Enters s u 52 0 i c.pc (if c.sp.mode = .h then .h else .s)

/-- R8, R172, R217, R355: of a store whose lanes in part fail their checks, the failing lanes alone trap, with the cause and address of the lowest,
resuming at the instruction; every other lane's store is in flight and its split goes on past the instruction. Of what it says, the model's choice,
not the spec's: log 25. -/
def Obligations.FailingLanesTrapAlone : Prop :=
  ∀ row ∈ storeRows, ∀ (s : State) (c : Ctx) (po : Bool) (disp : BitVec 7) (base : CReg) (o d : Reg) (f cause addr : Nat), s.ctx = some c →
    let n := row.2.2
    let cap := c.laneCap row.2.1 base
    let off := fun l => ((c.v o.toNat .none l).toNat : Int) + disp.toInt * (4 * n)
    let chk := fun l => check15 (cap l) permW (off l) (4 * n) (4 * n)
    let bad := maskOf fun l => c.live.getLsbD l && (chk l).isSome
    let mode : Mode := if c.sp.mode = .h then .h else .s
    c.ready { wf := multiple n d, srcs := .v o.toNat 1 po .none :: .v d.toNat n false .none :: quadSrc row.2.1 base po } = true →
    c.mustWait = false → c.MayTrap s → c.g.freeEntry = some f → bad ≠ 0 → bad ≠ c.active →
    chk (lowest bad) = some (cause, addr) → ∃ t, exec (row.1 po disp base o d) s = .next t ∧
      (∀ l, c.Lane l → chk l = none → ∃ id,
        (id, c.req s.nextId l (.store (c.regBytes d.toNat n l)) ((cap l).at (off l)) (4 * n) (cap l) []) ∈ t.reqs) ∧
      (∃ g, t.gang c.gid = some g ∧ g.v = c.g.v ∧ g.k = c.g.k ∧ g.s = c.g.s ∧ g.c = c.g.c ∧
        look g.splits c.e = some { c.past with mask := c.active &&& ~~~bad, trap := none } ∧
        look g.splits f = some (Split.start bad (if mode = .h then s.htvec else c.part.tvec) mode (c.sp.depth + 1) []) ∧
        c.SameSplits g.splits [c.e, f]) ∧
      let fr := s.frameAt c.g (c.sp.depth + 1)
      t.value fr 8 = addr ∧ t.value (fr + 8) 4 = bad.toNat ∧ t.value (fr + 12) 4 = c.word.toNat ∧ t.value (fr + 16) 4 = c.pc.toNat ∧
        t.value (fr + 20) 4 = c.pc.toNat ∧ t.value (fr + 24) 1 = cause ∧ ∀ a, a < fr ∨ fr + 64 ≤ a → t.byte a = s.byte a

/-- R225, R227: an atomic or reduction puts the update of every live lane in flight as it issues, and goes on. Its updates of one word are made in
ascending lane order: one that an earlier update of the same instruction to a common byte precedes stays as it is. Of what it says, the model's
choice, not the spec's: log 7 (a step asked for too early changes nothing), 13 (when the updates are in flight, and their passes). -/
def Obligations.AtomicsPutEveryUpdateInFlight : Prop :=
  (∀ row ∈ atomicRows, ∀ (s : State) (c : Ctx) (base : CReg) (a b : Reg), s.ctx = some c →
    let (op, returns) := row.2
    let x := c.cv base.toNat
    let off := fun l => ((c.v a.toNat .none l).toNat : Int) + 0
    let ls := lanesOf c.live
    let pass := passAt ls fun l => x.at (off l)
    let rs := ls.map fun l => { c.req s.nextId l
      (.atomic op (c.v b.toNat .none l) (if op = 9 then c.v (b.toNat + 1) .none l else 0) returns) (x.at (off l)) 4 x
      (if returns then [.v (c.vk b.toNat)] else []) with pass := pass l, peers := maskOf fun m => ls.contains m && pass m == pass l }
    c.ready { wf := op != 9 || even b, srcs := [.v a.toNat 1 false .none, .v b.toNat (if op = 9 then 2 else 1) false .none, .c base.toNat],
              dsts := if returns then [.v b.toNat 1] else [] } = true →
    (c.mustWait = true → exec (row.1 base a b) s = .next s) ∧
    (c.mustWait = false → (∀ l, c.Lane l → check15 x (if returns then permR ||| permW else permW) (off l) 4 4 = none) →
      ∃ t, exec (row.1 base a b) s = .next t ∧ (returns = true → ∀ l, c.Lane l → c.EmptyV t b.toNat l) ∧
        (c.released rs).Completes (s.sent rs) t { v := if returns then [c.vk b.toNat] else [] } c.past)) ∧
  ∀ (s : State) (id k : Nat) (keep : Bool) (err : MemErr) (r q : Req), look s.reqs id = some r → (k, q) ∈ s.reqs → k < id →
    q.inst = r.inst → q.gang = r.gang → q.acc.isAtomic = true → r.acc.isAtomic = true → q.inFlight = true →
    overlap q.addr q.size r.addr r.size = true → exec (.homeSliceAccess id keep err) s = .next s

/-- R205 to R207, R221, R222: LDS and STS of live lanes whose places exist and, for a load, are full; SPEMPTY and SPFILL. Where lanes
store to one place the highest's word stays (R215). A store waits where a release would (R236, R241), and for a tile load of its lanes that has yet
to read the place (R237, R259). -/
def Says.ScratchpadLoadsStoresAndLines : Prop :=
  (∀ (s : State) (c : Ctx) (po win : Bool) (disp : BitVec 7) (o d : Reg), s.ctx = some c →
    let off := fun l => ((c.v o.toNat .none l).toNat : Int) + disp.toInt * 4
    let place := fun l => (c.padPlace win (off l) 4).getD (0, 0)
    let blk := fun l => (s.block (place l).1).getD c.blk
    c.ready { srcs := [.v o.toNat 1 po .none], dsts := [.v d.toNat 1] } = true → c.mustWait = false →
    (∀ l, c.Lane l → c.padCheck win (off l) 4 = none) →
    (s.emptyLines ((lanesOf c.live).map place) 4 = [] → ∃ t, exec (.lds32 po disp win o d) s = .next t ∧
      (∀ l, c.Lane l → c.EmptyV t d.toNat l) ∧
      c.Completes (c.padAcquired (s.sent ((lanesOf c.live).map fun l =>
        { c.req s.nextId l .onCore (place l).2 4 Cap.null [.v (c.vk d.toNat)] with
          acq := false
          stage := if (blk l).padPoisoned (place l).2 4 then .rejected 20 (off l).toNat
            else .replied (wordsOf 1 ((blk l).padBytes (place l).2 4)) false })) ((lanesOf c.live).map place)) t { v := [c.vk d.toNat] } c.past) ∧
    (s.emptyLines ((lanesOf c.live).map place) 4 ≠ [] → ∃ t, exec (.lds32 po disp win o d) s = .next t ∧
      c.Stays s t {} { c.sp with run := .parked (.pad (s.emptyLines ((lanesOf c.live).map place) 4)) })) ∧
  (∀ (s : State) (c : Ctx) (po win : Bool) (disp : BitVec 7) (o d : Reg), s.ctx = some c →
    let off := fun l => ((c.v o.toNat .none l).toNat : Int) + disp.toInt * 4
    let place := fun l => (c.padPlace win (off l) 4).getD (0, 0)
    let held := c.padWait || c.padRead c.live ((lanesOf c.live).map place) 4
    c.ready { srcs := [.v o.toNat 1 po .none, .v d.toNat 1 false .none] } = true → (∀ l, c.Lane l → c.padCheck win (off l) 4 = none) →
    (held = true → exec (.sts32 po disp win o d) s = .next s) ∧
    (held = false → ∃ t, exec (.sts32 po disp win o d) s = .next t ∧
      (c.padReleased (c.pfx.scope != 0)).Completes { s with blocks := t.blocks } t {} c.past ∧ ∀ id b, s.block id = some b → ∃ b', t.block id = some b' ∧
        b' = { b with pad := b'.pad, padTag := b'.padTag, padPoison := b'.padPoison } ∧
        (∀ l, c.Lane l → (place l).1 = id → (∀ m, c.Lane m → l < m → place m ≠ place l) →
          b'.padBytes (place l).2 4 = leBytes 4 (c.v d.toNat .none l).toNat) ∧
        ∀ n, (∀ l, c.Lane l → (place l).1 = id → n < (place l).2 ∨ (place l).2 + 4 ≤ n) → lookD 0 b'.pad n = lookD 0 b.pad n)) ∧
  ∀ row ∈ [(Instr.spempty, true), (Instr.spfill, false)], ∀ (s : State) (c : Ctx) (a : Reg), s.ctx = some c →
    c.ready { srcs := [.v a.toNat 1 false .none] } = true → (∀ l, c.Lane l → (c.v a.toNat .none l).toNat < c.blk.padSize) →
    ∃ t, exec (row.1 a) s = .next t ∧ c.Completes { s with blocks := t.blocks } t {} c.past ∧
      (∀ id, id ≠ c.g.block → t.block id = s.block id) ∧ ∃ b, t.block c.g.block = some b ∧
        b = { c.blk with padEmpty := b.padEmpty, padFar := b.padFar } ∧
        (∀ l, c.Lane l → lookD false b.padEmpty ((c.v a.toNat .none l).toNat / 128) = row.2 ∧
          lookD false b.padFar ((c.v a.toNat .none l).toNat / 128) = false) ∧
        ∀ n, (∀ l, c.Lane l → (c.v a.toNat .none l).toNat / 128 ≠ n) →
          lookD false b.padEmpty n = lookD false c.blk.padEmpty n ∧ lookD false b.padFar n = lookD false c.blk.padFar n

/-- R226, R227: the scratchpad atomics. While a line that they name is empty the split parks at the instruction and nothing is updated. Once every
one is full, a step serves one pass, of the lanes left the lowest of each word: the word as it stands is on its way to the lane's register, emptied at
the first pass, and the word takes its update. The split stays at the instruction for the lanes left, whose lines and registers hold it up no more, and
goes on past it when none is left. -/
def Says.ScratchpadAtomics : Prop :=
  ∀ row ∈ atomicPadRows, ∀ (s : State) (c : Ctx) (win : Bool) (a b : Reg), s.ctx = some c →
    let op := row.2
    let place := fun l => (c.padPlace win (((c.v a.toNat .none l).toNat : Int) + 0) 4).getD (0, 0)
    let places := (lanesOf c.live).map place
    let word : Nat → Word := fun l => BitVec.ofNat 32 (leNat (((s.block (place l).1).getD c.blk).padBytes (place l).2 4))
    let new := fun l => atomNew op (word l) (c.v b.toNat .none l) (if op = 9 then c.v (b.toNat + 1) .none l else 0)
    let now := (lanesOf c.live).filter fun l => ∀ m ∈ lanesOf c.live, m < l → place m ≠ place l
    let left := maskOf fun l => c.live.getLsbD l && !now.contains l
    let lines := s.emptyLines places 4
    let held := c.padWait || c.padRead c.live places 4
    let start := c.sp.only == 0
    c.ready { wf := op != 9 || even b, also := fun c => c.vOk a.toNat && c.vRange b.toNat (if op = 9 then 2 else 1)
              srcs := if start then [.v a.toNat 1 false .none, .v b.toNat (if op = 9 then 2 else 1) false .none] else []
              dsts := if start then [.v b.toNat 1] else [] } = true →
    (∀ l, c.Lane l → c.padCheck win (((c.v a.toNat .none l).toNat : Int) + 0) 4 = none) →
    (start = true → held = true → exec (row.1 win a b) s = .next s) ∧
    (start = true → held = false → lines ≠ [] → ∃ t, exec (row.1 win a b) s = .next t ∧ c.Stays s t {} { c.sp with run := .parked (.pad lines) }) ∧
    ((start = true → held = false ∧ lines = []) →
      (∀ l ∈ now, ((s.block (place l).1).getD c.blk).padPoisoned (place l).2 4 = false) →
      ∃ t, exec (row.1 win a b) s = .next t ∧ (start = true → ∀ l, c.Lane l → c.EmptyV t b.toNat l) ∧
      (let u := { c.padAcquired (s.sent (now.map fun l =>
          { c.req s.nextId l .onCore (place l).2 4 Cap.null [.v (c.vk b.toNat)] with acq := false, stage := .replied [word l] false }))
          places with blocks := t.blocks }
      (left = 0 → (c.padReleased true).Completes u t { v := [c.vk b.toNat] } c.past) ∧
      (left ≠ 0 → (c.padReleased true).Stays u t { v := [c.vk b.toNat] } { c.sp with only := left })) ∧
      ∀ id x, s.block id = some x → ∃ y, t.block id = some y ∧ y = { x with pad := y.pad, padTag := y.padTag, padPoison := y.padPoison } ∧
        (∀ l ∈ now, (place l).1 = id → y.padBytes (place l).2 4 = leBytes 4 (new l).toNat) ∧
        ∀ n, (∀ l ∈ now, (place l).1 = id → n < (place l).2 ∨ (place l).2 + 4 ≤ n) → lookD 0 y.pad n = lookD 0 x.pad n)

/-- R224: WAITMEM parks its split at the instruction with a read of each live lane, and completes at once where no lane is live. Its split
goes on past it when each lane has latched. Of what it says, the model's choice, not the spec's: log 7 (a wake asked for too early changes nothing). -/
def Obligations.WaitmemParksUntilLatched : Prop :=
  (∀ row ∈ [(Instr.waitmemNe, true), (Instr.waitmemEq, false)], ∀ (s : State) (c : Ctx) (base : CReg) (a b : Reg), s.ctx = some c →
    let x := c.cv base.toNat
    let off := fun l => ((c.v a.toNat .none l).toNat : Int) + 0
    c.ready { srcs := [.v a.toNat 1 false .none, .v b.toNat 1 false .none, .c base.toNat] } = true → c.mustWait = false →
    (∀ l, c.Lane l → check15 x permR (off l) 4 4 = none) → ∃ t, exec (row.1 base a b) s = .next t ∧
      (let u := s.sent ((lanesOf c.live).map fun l => c.req s.nextId l (.wait row.2 (c.v b.toNat .none l)) (x.at (off l)) 4 x [])
      (c.live ≠ 0 → c.Completes u t {} { c.sp with run := .parked (.waitmem c.next) }) ∧ (c.live = 0 → c.Completes u t {} c.past))) ∧
  ∀ (s : State) (gid e : Nat) (g : Gang) (sp : Split) (next : Word), s.gang gid = some g → look g.splits e = some sp →
    sp.run = .parked (.waitmem next) → g.place = .resident → s.gangMoves gid { g with stopped := false } = true →
    ((∃ x ∈ s.reqs, x.2.waitOf gid sp.mask = true ∧ (x.2.isOpen = true ∨ x.2.stage = .waiting)) → exec (.splitWake gid e) s = .next s) ∧
    ((∀ x ∈ s.reqs, x.2.waitOf gid sp.mask = true → ∃ ws b, x.2.stage = .replied ws b) → ∃ t, exec (.splitWake gid e) s = .next t ∧
      t = { s with gangs := t.gangs, cores := t.cores, reqs := s.reqs.filter fun x => !x.2.waitOf gid sp.mask,
                   flueOps := s.flueOps.filter fun x => !x.2.waitOf gid sp.mask } ∧
      t.gang gid = some { g with splits := set g.splits e { sp with pc := next, run := .ready } } ∧
      (∀ k, k ≠ gid → t.gang k = s.gang k) ∧
      ∀ x ∈ s.reqs, x.2.waitOf gid sp.mask = true → x.2.acq = true → 3 ≤ x.2.scope → (t.core x.2.core).l1 = [])

/-! ### The home slice (10, R174, R193, R199 to R202, R211 to R215) -/

/-- R199, R201, R218, R220, R223, R224: what a read does at its home slice: a load's bytes as they stand there are on their way back, extended as the
instruction says; a capability comes with its tag where LC allows; no memory changes. Of what it says, the model's choice, not the spec's: log 31. -/
def Obligations.HomeSliceReads : Prop :=
  ∀ (s : State) (id : Nat) (keep : Bool) (r : Req), s.Reaches id r →
    let bs := s.bytesAt (s.pasid r.part) r.addr r.size
    let goes := fun (x : Option Stage) => ∃ t, exec (.homeSliceAccess id keep .none) s = .next t ∧
      t = { s with reqs := t.reqs, slices := t.slices, cores := t.cores, tally := t.tally } ∧ look t.reqs id = x.map (fun y => { r with stage := y }) ∧
      ∀ k, k ≠ id → look t.reqs k = look s.reqs k
    (∀ signed plain, r.acc = .load signed plain → goes (some (.replied (loadWords signed r.size bs) false))) ∧
    (∀ lc, r.acc = .loadCap lc → isHost r.addr = false → r.size = 16 →
      let c := s.moved (s.capAt r.addr)
      goes (some (.replied (wordsOf 4 (leBytes 16 c.bits.toNat)) (c.tag && lc)))) ∧
    (r.acc = .prefetch → goes none) ∧
    ∀ ne cmp, r.acc = .wait ne cmp →
      let x : Word := BitVec.ofNat 32 (leNat (s.bytesAt (s.pasid r.part) r.addr 4))
      goes (some (if (ne = true ∧ x ≠ cmp) ∨ (ne = false ∧ x = cmp) then .replied [] false else .waiting))

/-- R179, R201, R215, R218, R220, R225: what a write does at its home slice: the bytes stored, or the word as an atomic leaves it, stand at the address, the tags of the
granules they touch are clear, every other byte and tag stays, and of one instruction's stores to an address the highest lane's stays. Of what it says, the model's choice, not the spec's: log 72. -/
def Obligations.HomeSliceWrites : Prop :=
  ∀ (s : State) (id : Nat) (keep : Bool) (r : Req), s.Reaches id r →
    let clears := fun (t : State) => isHost r.addr = false → ∀ n, lookD false t.tags n =
      if r.addr / 16 ≤ n ∧ n ≤ (r.addr + r.size - 1) / 16 then false else lookD false s.tags n
    let keeps := fun (t : State) => t = { s with mem := t.mem, hostMem := t.hostMem, tags := t.tags, poison := t.poison, wordBad := t.wordBad,
                                                 reqs := t.reqs, slices := t.slices, cores := t.cores, tally := t.tally }
    (∀ (bs : List Byte) (k : Nat) (q : Req), r.acc = .store bs → (k, q) ∈ s.storeGroup id r → ∀ b, q.acc = .store b → b.length = r.size → 0 < r.size →
      (∀ x ∈ s.storeGroup id r, x = (k, q) ∨ (x.2.lane < q.lane ∧ ∃ y, x.2.acc = .store y)) →
      ∃ t, exec (.homeSliceAccess id keep .none) s = .next t ∧ s.Wrote t r.part r.addr b ∧ look t.reqs id = none ∧ clears t ∧ keeps t) ∧
    (∀ (c : Cap), r.acc = .storeCap c → isHost r.addr = false → r.addr % 16 = 0 → r.size = 16 → s.storeGroup id r = [(id, r)] →
      ∃ t, exec (.homeSliceAccess id keep .none) s = .next t ∧ t.capAt r.addr = s.moved c ∧ look t.reqs id = none ∧
        (∀ a, a < r.addr ∨ r.addr + 16 ≤ a → t.byte a = s.byte a) ∧ (∀ n, n ≠ r.addr / 16 → lookD false t.tags n = lookD false s.tags n) ∧
        keeps t) ∧
    ∀ op y z returns, r.acc = .atomic op y z returns → r.size = 4 →
      let x : Word := BitVec.ofNat 32 (leNat (s.bytesAt (s.pasid r.part) r.addr 4))
      ∃ t, exec (.homeSliceAccess id keep .none) s = .next t ∧ s.Wrote t r.part r.addr (leBytes 4 (atomNew op x y z).toNat) ∧
        clears t ∧ keeps t ∧ look t.reqs id = if returns then some { r with stage := .replied [x] false } else none

/-- R174, R202, R204: an access that fails at its home slice writes nothing and is rejected with the cause and address; one that waits for a host page
stays in flight. R223: a prefetch that fails, or whose host page is known not to be present, goes silently. R338: a raised writer of a channel stands
after those already raised. R193: when an extent's change completes, no cache holds a line of it; it waits for a store there that has been seen. Of
what it says, the model's choice, not the spec's: log 7, 42, 89. -/
def Obligations.RejectionsAndExtentChanges : Prop :=
  (∀ (s : State) (id cause addr : Nat) (keep : Bool) (err : MemErr) (r : Req), s.MayReach id r → s.reachReq r = .fail cause addr →
    (∀ n, r.acc ≠ .board n ∧ r.acc ≠ .alight n) →
    (r.acc ≠ .prefetch → ∃ t, exec (.homeSliceAccess id keep err) s = .next t ∧ look t.reqs id = some { r with stage := .rejected cause addr } ∧
      t = { s with reqs := t.reqs, gangs := t.gangs } ∧ ∀ k, k ≠ id → look t.reqs k = look s.reqs k) ∧
    (r.acc = .prefetch → exec (.homeSliceAccess id keep err) s = .next { s with reqs := del s.reqs id })) ∧
  (∀ (s u : State) (id : Nat) (keep : Bool) (err : MemErr) (r : Req), s.MayReach id r → s.reachReq r = .wait u →
    (r.acc = .prefetch → (∃ x ∈ s.pageReqs, x.part = r.part ∧ x.page = r.addr / 4096) →
      exec (.homeSliceAccess id keep err) s = .next { s with reqs := del s.reqs id }) ∧
    ((r.acc = .prefetch → ∀ x ∈ s.pageReqs, ¬(x.part = r.part ∧ x.page = r.addr / 4096)) →
      ∃ t, exec (.homeSliceAccess id keep err) s = .next t ∧ look t.reqs id = some { r with stage := .page } ∧
        t = { s with reqs := t.reqs, atsOut := t.atsOut })) ∧
  (∀ (s : State) (ch writer : Nat),
    let held := (lookD [] s.raised ch).filter fun w => if ch < 128 then s.unitWaits ch w true else s.replyWaits (ch - 128) w
    (if ch < 128 then s.unitWaits ch writer false else s.replyWaits (ch - 128) writer) = true → writer ∉ held →
    ∃ t, exec (.raisedWriter ch writer) s = .next t ∧ t = { s with raised := t.raised } ∧
      lookD [] t.raised ch = held ++ [writer] ∧ ∀ k, k ≠ ch → lookD [] t.raised k = lookD [] s.raised k) ∧
  ∀ (s : State) (e : Nat), e ∈ s.changing →
    let seen := fun (x : Nat × Req) => x.2.inFlight = true ∧ x.2.seen ≠ [] ∧ e ∈ extentsOf x.2.addr x.2.size
    ((∃ x ∈ s.reqs, seen x) → exec (.extentChangeCompletion e) s = .next s) ∧
    ((∀ x ∈ s.reqs, ¬seen x) → ∃ t, exec (.extentChangeCompletion e) s = .next t ∧
    t = { s with slices := t.slices, cores := t.cores, changing := t.changing, freed := t.freed } ∧ e ∉ t.changing ∧
    (∀ x, x ∈ s.changing → x ≠ e → x ∈ t.changing) ∧ (∀ k, ∀ x ∈ lookD [] t.slices k, x.line / 16384 ≠ e) ∧
    (∀ k, ∀ x ∈ (t.core k).l1, x.line / 16384 ≠ e) ∧ (extState (s.extent e) = 3 → t.freed = true))

/-- R55, R57, R220: a reply fills each register it is for, in its lane, clears the tag of its quad, and changes nothing else of the gang; the request is
gone. A capability's tag arrives with it, unless it has gone stale since (R387). A reply whose seat has moved on to another context generation is discarded (R48). -/
def Obligations.RepliesFillTheirRegisters : Prop :=
  ∀ (s : State) (id : Nat) (r : Req) (g : Gang) (words : List Word) (tag : Bool), look s.reqs id = some r → r.stage = .replied words tag →
    (∀ ne cmp, r.acc ≠ .wait ne cmp) → s.replyOutranked r = false → s.gang r.gang = some g →
    (lookD 0 (s.core r.core).ctxgen r.seat ≠ r.gen → ∃ t, exec (.loadReturn id) s = .next t ∧
      t = { s with reqs := del s.reqs id, raised := t.raised }) ∧
    (lookD 0 (s.core r.core).ctxgen r.seat = r.gen → g.place = .resident → (s.core (s.coreOf g)).occ = some (s.partOf g) →
      words.length = r.dests.length → r.dests.Nodup →
      ∃ t g', exec (.loadReturn id) s = .next t ∧ t = { s with reqs := t.reqs, gangs := t.gangs, cores := t.cores, raised := t.raised } ∧
      look t.reqs id = none ∧
      (∀ k, k ≠ id → look t.reqs k = look s.reqs k) ∧ t.gang r.gang = some g' ∧ (∀ k, k ≠ r.gang → t.gang k = s.gang k) ∧
      (∀ x ∈ r.dests.zip words, match x.1 with
        | .v key => r.lane < 32 → g'.vAt key r.lane = x.2 ∧ g'.vFull key r.lane = true ∧ (lookD 0 g'.vBad key).getLsbD r.lane = false ∧
          ((∀ b, r.acc ≠ .loadCap b) → g'.tagAt key r.lane = false)
        | .s key => g'.sAt key = x.2 ∧ g'.sFull key = true) ∧
      (∀ key l, l < 32 → r.lane < 32 → (Dest.v key ∉ r.dests ∨ l ≠ r.lane) → g'.vAt key l = g.vAt key l ∧ g'.vFull key l = g.vFull key l ∧
        (lookD 0 g'.vBad key).getLsbD l = (lookD 0 g.vBad key).getLsbD l) ∧
      (∀ key, Dest.s key ∉ r.dests → g'.sAt key = g.sAt key ∧ g'.sFull key = g.sFull key ∧ lookD false g'.sBad key = lookD false g.sBad key) ∧
      g' = { g with v := g'.v, vEmpty := g'.vEmpty, vTag := g'.vTag, vBad := g'.vBad, s := g'.s, sEmpty := g'.sEmpty, sBad := g'.sBad } ∧
      (∀ b key ds, r.acc = .loadCap b → r.dests = .v key :: ds → r.lane < 32 →
        g'.tagAt key r.lane = (s.moved ⟨words.getD 3 0 ++ words.getD 2 0 ++ words.getD 1 0 ++ words.getD 0 0, tag⟩).tag) ∧
      ((r.acq = true ∧ 3 ≤ r.level) → (t.core r.core).l1 = []))

/-- R174, R357, R359: a rejected lane that stands in a ready split alone of its instruction enters the handler with the rejected instruction's address and
word, the count of instructions issued since, and its destinations full again with their old values. Of what it says, the model's choice, not the
spec's: log 28 (the count by lane), 74. -/
def Obligations.RejectedLaneTrapsLate : Prop :=
  ∀ (s : State) (id e cause addr l : Nat) (r : Req) (g : Gang) (sp : Split) (p : Part) (b : Block), look s.reqs id = some r →
    r.stage = .rejected cause addr → r.lane = l → l < 32 → cause < 256 → addr < 2 ^ 48 → (∀ ne cmp, r.acc ≠ .wait ne cmp) → cause ≠ 65 →
    (∀ x ∈ s.reqs, x.1 = id ∨ (x.2.inst = r.inst ∧ x.2.gang = r.gang) → x = (id, r)) → s.gang r.gang = some g → s.gangMoves r.gang g = true →
    (e, sp) ∈ g.splits → look g.splits e = some sp → sp.mask.getLsbD l = true → sp.run = .ready → sp.only = 0 → e < 4 →
    (∀ x ∈ g.splits, x.1 ≠ e → x.2.mask.getLsbD l = false) → (∀ x ∈ g.splits, x.1 = e → x = (e, sp)) →
    sp.depth < 3 → look g.traps (sp.depth + 1) = none → s.seatOk g = true → s.block g.block = some b → s.part b.part = some p →
    ∃ t g', exec (.accessRejection id) s = .next t ∧ t.gang r.gang = some g' ∧ look t.reqs id = none ∧
      (let mode : Mode := if sp.mode = .h then .h else .s
      ∃ f, look g'.splits f = some (Split.start (bit l) (if mode = .h then s.htvec else p.tvec) mode (sp.depth + 1) [])) ∧
      (∀ key, Dest.v key ∈ r.dests → g'.vAt key l = g.vAt key l ∧ g'.vFull key l = true) ∧ g'.v = g.v ∧ g'.k = g.k ∧ g'.s = g.s ∧ g'.c = g.c ∧
      let f := s.frameAt g (sp.depth + 1)
      t.value f 8 = addr ∧ t.value (f + 8) 4 = 2 ^ l ∧ t.value (f + 12) 4 = r.word.toNat ∧ t.value (f + 16) 4 = r.pc.toNat ∧
        t.value (f + 20) 4 = sp.pc.toNat ∧ t.value (f + 24) 1 = cause ∧ t.value (f + 32) 4 = min (g.ticks.getD l 0 - r.issued.getD l 0) (2 ^ 32 - 1) ∧
        ∀ a, a < f ∨ f + 64 ≤ a → t.byte a = s.byte a

/-! ### Capabilities (09) -/

/-- R181 to R187: the capability instructions write one c register with the capability that their rule gives, or raise the cause it gives;
c15 of a trap handler takes no write (log 12). -/
def Says.CapabilityWrites : Prop :=
  ∀ (s : State) (c : Ctx) (x q : Reg) (a b : CReg), s.ctx = some c →
    let v := c.cv a.toNat
    let y := c.sv x.toNat
    let z := c.sv (x.toNat + 1)
    let yes : Cap → Except (Nat × Nat) Cap := .ok
    ∀ row ∈ ([(Instr.cmov a b, { srcs := [.c a.toNat] }, yes v), (.cclrtag a b, { srcs := [.c a.toNat] }, yes { v with tag := false }),
        (.csetb x a b, { wf := even x, srcs := [.s x.toNat 2 false, .c a.toNat] }, csetbOf v y z),
        (.candp x a b, { srcs := [.s x.toNat 1 false, .c a.toNat] }, candpOf v y), (.cseal x a b, { srcs := [.s x.toNat 1 false, .c a.toNat] }, csealOf v y),
        (.cdeleg x a b, { k2 := false, srcs := [.s x.toNat 1 false, .c a.toNat] }, cdelegOf v y), (.cunseal a b, { srcs := [.c a.toNat] }, cunsealOf s c.part v),
        (.croot x b, { priv := .s, wf := even x, srcs := [.s x.toNat 2 false] }, crootOf s c.part (c.sp.mode == .h) y z),
        (.cfromq q b, { wf := quad q, srcs := (List.range 4).map fun i => .cross (q.toNat + i) false fun c _ => lowest c.active },
          yes (c.g.quadAt (c.vk q.toNat) (lowest c.active)))] : List (Instr × Needs × Except (Nat × Nat) Cap)),
      c.ready row.2.1 = true →
      let locked := b = 15 ∧ c.sp.mode ≠ .u
      let mode : Mode := if c.sp.mode = .h then .h else .s
      (¬locked → ∀ k, row.2.2 = .ok k → ∃ t, exec row.1 s = .next t ∧ c.Completes s t { c := [cKey c.sp.mode b.toNat] } c.past ∧
        c.HoldsC t b.toNat k) ∧
      (¬locked → c.MayTrap s → ∀ cause addr, row.2.2 = .error (cause, addr) → ∃ t, exec row.1 s = .next t ∧
        c.Enters s t cause addr 0 c.pc mode) ∧
      (locked → c.MayTrap s → ∃ t, exec row.1 s = .next t ∧ c.Enters s t 3 0 0 c.pc mode)

/-- R167, R181, R186, R187: the reports of capability fields to s registers, CCOVER's bits, and CTOQ's copy to each live lane's quad with its
tag. -/
def Says.CapabilityReads : Prop :=
  (∀ row ∈ capFieldRows, ∀ (s : State) (c : Ctx) (a : CReg) (b : Reg), s.ctx = some c →
    c.ready { srcs := [.c a.toNat], dsts := [.s b.toNat 1] } = true → ∃ t, exec (row.1 a b) s = .next t ∧ c.Completes s t { s := [c.sk b.toNat] } c.past ∧
      c.HoldsS t b.toNat (BitVec.ofNat 32 (row.2 (c.cv a.toNat)))) ∧
  (∀ row ∈ [(Instr.cgetBase, Cap.flat), (Instr.cgetLen, Cap.len)], ∀ (s : State) (c : Ctx) (a : CReg) (b : Reg), s.ctx = some c →
    c.ready { wf := even b, srcs := [.c a.toNat], dsts := [.s b.toNat 2] } = true →
    ∃ t, exec (row.1 a b) s = .next t ∧ c.Completes s t { s := [c.sk b.toNat, c.sk (b.toNat + 1)] } c.past ∧
      c.HoldsS t b.toNat (BitVec.ofNat 32 (row.2 (c.cv a.toNat))) ∧
      c.HoldsS t (b.toNat + 1) (BitVec.ofNat 32 (row.2 (c.cv a.toNat) / 2 ^ 32))) ∧
  (∀ (s : State) (c : Ctx) (x a : CReg) (b : Reg), s.ctx = some c →
    c.ready { srcs := [.c a.toNat, .c x.toNat], dsts := [.s b.toNat 1] } = true → ∃ t w, exec (.ccover x a b) s = .next t ∧ c.Completes s t { s := [c.sk b.toNat] } c.past ∧ c.HoldsS t b.toNat w ∧
      let v := c.cv a.toNat
      let y := c.cv x.toNat
      w.toNat < 16 ∧ (w.getLsbD 0 = true ↔ v.tag = true ∧ y.tag = true) ∧
        (w.getLsbD 1 = true ↔ v.type = y.type ∧ v.colour = y.colour ∧ v.gen = y.gen) ∧
        (¬(v.type = 3 ∧ y.type = 3) → (w.getLsbD 2 = true ↔ y.flat ≤ v.flat ∧ v.flat + v.len ≤ y.flat + y.len)) ∧
        (v.type = 3 ∧ y.type = 3 → (w.getLsbD 2 = true ↔ y.base ≤ v.base ∧ v.base + v.len ≤ y.base + y.len)) ∧
        (w.getLsbD 3 = true ↔ ∀ i < 8, v.perm.getLsbD i = true → y.perm.getLsbD i = true)) ∧
  ∀ (s : State) (c : Ctx) (a : CReg) (b : Reg), s.ctx = some c → c.ready { wf := quad b, srcs := [.c a.toNat], dsts := [.v b.toNat 4] } = true →
    ∃ t, exec (.ctoq a b) s = .next t ∧ c.Completes s t { v := (List.range 4).map fun i => c.vk (b.toNat + i) } c.past ∧
      ∀ l, c.Lane l → c.HoldsQuad t b.toNat l (c.cv a.toNat)

/-- R181 to R185: what each derivation gives, field by field, and its causes in their order. -/
def Says.CapabilityDerivations : Prop :=
  (∀ (a : Cap) (x y : Word),
    let u := if a.type = 0 then 16 else 1
    let start := x.toNat * u
    let len : Int := if y = 0xFFFFFFFF then (a.len : Int) - start else y.toNat * u
    let r := csetbOf a x y
    (a.tag = false → r = .error (1, 0)) ∧ (a.tag = true → a.type ≠ 0 → a.type ≠ 3 → r = .error (6, 0)) ∧
    (a.tag = true → a.type = 0 ∨ a.type = 3 →
      ((a.len : Int) < start + len ∨ len < 0 → r = .error (2, (a.flat + start) % 2 ^ 48)) ∧
      ((start : Int) + len ≤ a.len → 0 ≤ len → ∃ k, r = .ok k ∧
        k.Is ((a.base + x.toNat) % 2 ^ 44) len.toNat a.perm a.colour a.gen a.type))) ∧
  (∀ (a : Cap) (x : Word),
    (a.tag = false → candpOf a x = .error (1, 0) ∧ csealOf a x = .error (1, 0) ∧ cdelegOf a x = .error (1, 0)) ∧
    (a.tag = true →
      (a.type ≠ 0 → csealOf a x = .error (6, 0) ∧ cdelegOf a x = .error (6, 0)) ∧ (a.type ≠ 0 → a.type ≠ 3 → candpOf a x = .error (6, 0)) ∧
      (a.type = 0 ∨ a.type = 3 → ∃ k, candpOf a x = .ok k ∧ k.Is a.base a.len (a.perm &&& x.extractLsb' 0 8) a.colour a.gen a.type) ∧
      (a.type = 0 → a.perm.getLsbD 6 = false → csealOf a x = .error (3, 0) ∧ cdelegOf a x = .error (3, 0)) ∧
      (a.type = 0 → a.perm.getLsbD 6 = true →
        (x ≠ 1 → x ≠ 2 → csealOf a x = .error (7, 0)) ∧
        (x = 1 ∨ x = 2 → ∃ k, csealOf a x = .ok k ∧ k.Is a.base a.len a.perm a.colour a.gen x.toNat) ∧
        (isHost a.flat = true → cdelegOf a x = .error (7, 0)) ∧
        (isHost a.flat = false → ∃ k, cdelegOf a x = .ok k ∧ k.Is a.base a.len (a.perm &&& 0x3F) (x.extractLsb' 0 8) a.gen 4)))) ∧
  (∀ (s : State) (p : Part) (a : Cap),
    let e := s.extent (a.flat / 2 ^ 21)
    let r := cunsealOf s p a
    (a.tag = false → r = .error (1, 0)) ∧ (a.tag = true → a.type = 0 → r = .error (7, 0)) ∧
    (a.tag = true → a.type ≠ 0 → a.type ≠ 4 → r = .error (6, 0)) ∧
    (a.tag = true → a.type = 4 → (a.colour ≠ p.colour → r = .error (4, 0)) ∧
      (a.colour = p.colour → (extState e ≠ 1 ∧ extState e ≠ 2) ∨ extGen e ≠ a.gen → r = .error (5, 0)) ∧
      (a.colour = p.colour → extState e = 1 ∨ extState e = 2 → extGen e = a.gen → ∃ k, r = .ok k ∧
        k.Is a.base a.len a.perm (extOwner e) a.gen 0))) ∧
  ∀ (s : State) (p : Part) (hyp : Bool) (x y : Word),
    let r := crootOf s p hyp x y
    let first := (x.extractLsb' 0 18).toNat
    let run := fun i => s.extent (first + i)
    (x.getLsbD 31 = true → ∃ k, r = .ok k ∧ k.Is (p.flueFirst % 2 ^ 44) (p.flueCount % 2 ^ 40) (permR ||| permW) p.colour 0 3) ∧
    (x.getLsbD 31 = false → x.getLsbD 29 = true →
      (x.extractLsb' 18 11 ≠ 0 ∨ x.extractLsb' 8 10 ≠ 0 ∨ x.getLsbD 30 = true → r = .error (7, 0)) ∧
      (x.extractLsb' 18 11 = 0 → x.extractLsb' 8 10 = 0 → x.getLsbD 30 = false → ∃ k, r = .ok k ∧ k.flat = 2 ^ 47 + first * 2 ^ 39 ∧
        k.Is k.base (2 ^ 39) (permR ||| permW) p.colour 0 0)) ∧
    (x.getLsbD 31 = false → x.getLsbD 29 = false →
      (x.extractLsb' 18 11 ≠ 0 ∨ y = 0 ∨ 196608 < first + y.toNat → r = .error (7, 0)) ∧
      (x.extractLsb' 18 11 = 0 → y ≠ 0 → first + y.toNat ≤ 196608 →
        let whole := ∀ i < y.toNat, extOwner (run i) = extOwner (run 0) ∧ (extState (run i) = 1 ∨ extState (run i) = 2)
        let mine := hyp = true ∨ extOwner (run 0) = p.colour ∨ ∀ i < y.toNat, extState (run i) = 2
        (¬whole ∨ ¬mine → r = .error (4, 0)) ∧
        (whole → mine → (∃ i < y.toNat, extGen (run i) ≠ extGen (run 0)) → r = .error (5, 0)) ∧
        (whole → mine → (∀ i < y.toNat, extGen (run i) = extGen (run 0)) → ∃ k, r = .ok k ∧ k.flat = first * 2 ^ 21 ∧
          k.Is k.base (y.toNat * 2 ^ 21) (if x.getLsbD 30 then permR ||| permX
            else if ∀ i < y.toNat, extState (run i) = 1 then permR ||| permW ||| permLC ||| permSC ||| permMS ||| permSEAL ||| permSYS
            else permR ||| permLC) (extOwner (run 0)) (extGen (run 0)) 0)))

/-- R170, R181 to R185: no derivation widens a right. A capability that CSETB, CANDP, CSEAL, CDELEG or CUNSEAL derives covers no address
(or slot) and grants no permission that its source did not; only CDELEG chooses a colour, of a sealed type that only the partition of
that colour can unseal; and what CROOT makes for S mode covers extents that the partition owns or that are shared for reading. -/
def Obligations.DerivedCapabilitiesNeverExceed : Prop :=
  (∀ (s : State) (p : Part) (a k : Cap) (x y : Word),
    (a.type ≠ 3 → a.flat + a.len ≤ 2 ^ 48) → (a.type = 3 → a.base + a.len ≤ 2 ^ 44) →
    csetbOf a x y = .ok k ∨ candpOf a x = .ok k ∨ csealOf a x = .ok k ∨ cdelegOf a x = .ok k ∨ cunsealOf s p a = .ok k →
    a.tag = true ∧ k.perm &&& ~~~a.perm = 0 ∧ k.gen = a.gen ∧
      (a.type ≠ 3 → ∀ n, k.flat ≤ n → n < k.flat + k.len → a.flat ≤ n ∧ n < a.flat + a.len) ∧
      (a.type = 3 → ∀ n, k.base ≤ n → n < k.base + k.len → a.base ≤ n ∧ n < a.base + a.len) ∧
      (csetbOf a x y = .ok k ∨ candpOf a x = .ok k ∨ csealOf a x = .ok k → k.colour = a.colour)) ∧
  (∀ (a k : Cap) (x : Word), cdelegOf a x = .ok k → k.type = 4 ∧ k.colour = x.extractLsb' 0 8 ∧ k.perm &&& (permSEAL ||| permSYS) = 0) ∧
  (∀ (s : State) (p : Part) (a k : Cap), cunsealOf s p a = .ok k → a.type = 4 ∧ a.colour = p.colour ∧ k.type = 0) ∧
  ∀ (s : State) (p : Part) (x y : Word) (k : Cap), crootOf s p false x y = .ok k → x.getLsbD 31 = false → x.getLsbD 29 = false →
    k.tag = true ∧ k.type = 0 ∧ k.flat = (x.extractLsb' 0 18).toNat * 0x200000 ∧ k.len = y.toNat * 0x200000 ∧
      k.flat + k.len ≤ 0x6000000000 ∧ ∀ i < y.toNat,
        let e := s.extent ((x.extractLsb' 0 18).toNat + i)
        (extOwner e = p.colour ∧ (extState e = 1 ∨ extState e = 2) ∨ extState e = 2) ∧ extGen e = k.gen ∧
          (extState e = 2 → k.perm &&& permW = 0)

/-! ### Barriers and fences (12) -/

/-- R248, R250, R252: BAR.ARV of lanes of one arrival unit whose accesses are done: the unit arrives once every unexited lane of it has, and the
split goes on. Until then its lanes are noted. Of what it says, the model's choice, not the spec's: log 14 (the counts wrap), 52. -/
def Says.BarrierArrivals : Prop :=
  ∀ (s : State) (c : Ctx) (lvl : BitVec 2) (idx : BitVec 4) (r : BarRef) (b : Barrier) (u : Nat × Mask), s.ctx = some c →
    c.ready { wf := barName lvl idx, also := fun c => c.hasBar lvl.toNat idx.toNat } = true → c.sp.run = .ready →
    s.barRef c.gid c.g lvl.toNat idx.toNat = some r → s.barGet r = some b → u ∈ unitsOfGang c.blk.hdr.compat → c.active &&& ~~~u.2 = 0 →
    let key := barKey lvl.toNat idx.toNat u.1
    let arriving := lookD 0 c.g.arriving key ||| c.active
    let un := ~~~c.g.exited &&& u.2
    (s.openFor c.gid c.active = true → exec (.barArv lvl idx) s = .next s) ∧
    (s.openFor c.gid c.active = false → un ≠ 0 → ∃ t g, exec (.barArv lvl idx) s = .next t ∧ t.mem = s.mem ∧ t.reqs = s.reqs ∧
      t.gang c.gid = some g ∧ look g.splits c.e = some c.past ∧ g.v = c.g.v ∧ g.k = c.g.k ∧ g.c = c.g.c ∧
      (arriving &&& un ≠ un → t.barGet r = some b ∧ g = { c.g with
        arriving := put 0 c.g.arriving key arriving, splits := g.splits, ticks := g.ticks, skid := g.skid }) ∧
      (arriving &&& un = un →
        let b' := { b with arr := (b.arr + 1) % 2 ^ 32 }.settle
        t.barGet r = some b' ∧ lookD 0 g.arriving key = 0 ∧ (b'.count = b.count → lookD false g.recorded key = b.phase)))

/-- R251, R252: BAR.WAIT is over at once when the phase differs from the unit's recorded bit or the barrier is in error, and then writes the
phase word; otherwise its split parks at the instruction. -/
def Says.BarrierWaits : Prop :=
  ∀ (s : State) (c : Ctx) (lvl : BitVec 2) (idx : BitVec 4) (d : Reg) (r : BarRef) (b : Barrier) (u : Nat × Mask), s.ctx = some c →
    c.ready { wf := barName lvl idx, also := fun c => c.hasBar lvl.toNat idx.toNat, dsts := [.s d.toNat 1] } = true →
    s.barRef c.gid c.g lvl.toNat idx.toNat = some r → s.barGet r = some b → u ∈ unitsOfGang c.blk.hdr.compat → c.active &&& ~~~u.2 = 0 →
    let key := barKey lvl.toNat idx.toNat u.1
    let isOver := b.error = true ∨ lookD false c.g.recorded key ≠ b.phase
    (¬isOver → ∃ t, exec (.barWait lvl idx d) s = .next t ∧
      c.Completes s t {} { c.sp with run := .parked (.barrier lvl.toNat idx.toNat (c.sk d.toNat) false) }) ∧
    (isOver → ∃ t g w, exec (.barWait lvl idx d) s = .next t ∧ t = { s with gangs := t.gangs, cores := t.cores, picks := c.pick :: s.picks } ∧
      t.gang c.gid = some g ∧ look g.splits c.e = some c.past ∧ c.SameSplits g.splits [c.e] ∧ (∀ k, k ≠ c.gid → t.gang k = s.gang k) ∧
      g = { c.g with s := g.s, sEmpty := g.sEmpty, sBad := g.sBad, recorded := g.recorded, splits := g.splits, ticks := g.ticks,
                     skid := g.skid } ∧
      lookD false g.recorded key = b.phase ∧ c.HoldsS t d.toNat w ∧ (∀ k, k ≠ c.sk d.toNat → g.sAt k = c.g.sAt k) ∧
      w.getLsbD 31 = b.error ∧ w.getLsbD 16 = b.phase ∧ w.extractLsb' 0 16 = (if b.error then b.code else 0) ∧
      w.extractLsb' 17 14 = 0 ∧ (2 ≤ lvl.toNat → (t.core c.core).l1 = []))

/-- R41, R250, R251, R252: BAR.SYNC arrives and waits from its arrival on. Where the phase then differs from the unit's recorded bit, which the
arrival sets, or the barrier is in error, the split passes it with the phase word and wakes; else it stays parked at it. Of what it says, the
model's choice, not the spec's: log 14 (the counts wrap), 52. -/
def Says.BarrierSynchronises : Prop :=
  ∀ (s : State) (c : Ctx) (lvl : BitVec 2) (idx : BitVec 4) (d : Reg) (r : BarRef) (b : Barrier) (u : Nat × Mask), s.ctx = some c →
    rising s.gangs = true →
    c.ready { wf := barName lvl idx, also := fun c => c.hasBar lvl.toNat idx.toNat, dsts := [.s d.toNat 1] } = true →
    s.barRef c.gid c.g lvl.toNat idx.toNat = some r → s.barGet r = some b → u ∈ unitsOfGang c.blk.hdr.compat → c.active &&& ~~~u.2 = 0 →
    let key := barKey lvl.toNat idx.toNat u.1
    let un := ~~~c.g.exited &&& u.2
    let arrives := (lookD 0 c.g.arriving key ||| c.active) &&& un = un
    let b' := if arrives then { b with arr := (b.arr + 1) % 2 ^ 32 }.settle else b
    let isOver := b'.error = true ∨ (if arrives then b.phase else lookD false c.g.recorded key) ≠ b'.phase
    (s.openFor c.gid c.active = true → exec (.barSync lvl idx d) s = .next s) ∧
    (s.openFor c.gid c.active = false → un ≠ 0 →
      ∃ t g, exec (.barSync lvl idx d) s = .next t ∧ t.mem = s.mem ∧ t.barGet r = some b' ∧ t.gang c.gid = some g ∧ g.v = c.g.v ∧ g.k = c.g.k ∧
      g.c = c.g.c ∧
      (isOver → c.HoldsS t d.toNat b'.word ∧ look g.splits c.e = some { c.sp with run := .parked .met, pc := c.sp.pc + 4 }) ∧
      (¬isOver → look g.splits c.e = some { c.sp with run := .parked (.barrier lvl.toNat idx.toNat (c.sk d.toNat) true) } ∧
        ((∀ x ∈ c.g.splits, x.1 ≠ c.e → ∀ l i k y, x.2.run ≠ .parked (.barrier l i k y)) → g.s = c.g.s)))

/-- R248, R251: what completes a phase, and what a completed phase leaves: PHASE turns, the counts go to 0, and more delivered sectors than
expected make an error phase whose code stays until BAR.EXP clears it. -/
def Says.BarrierPhaseRules : Prop :=
  ∀ (b : Barrier) (x y : Word),
    (b.arr < b.expArr ∨ b.delSec < b.expSec → b.settle = b) ∧
    (b.expArr ≤ b.arr → b.expSec ≤ b.delSec →
      let b' := b.settle
      b'.phase = !b.phase ∧ b'.arr = 0 ∧ b'.expSec = 0 ∧ b'.delSec = 0 ∧ b'.count = b.count + 1 ∧ b'.expArr = b.expArr - b.nextDec ∧
        b'.error = (b.error || decide (b.expSec < b.delSec)) ∧
        b'.code = if b.error = false ∧ b.expSec < b.delSec then 0x0301 else b.code) ∧
    (x.msb = false → x.toNat ≠ 0 → b.expSec + y.toNat < 2 ^ 32 →
      b.expect x y = { b with expArr := x.toNat, expSec := b.expSec + y.toNat }.settle) ∧
    (x.msb = true → x.toNat = 2 ^ 31 →
      b.expect x y = { b with error := false, code := 0, arr := 0, expSec := y.toNat, delSec := 0 }.settle) ∧
    (x.msb = false → 2 ^ 32 ≤ b.expSec + y.toNat →
      (b.expect x y).error = true ∧ (b.error = false → (b.expect x y).code = 0x0302) ∧ (b.expect x y).phase = !b.phase)

/-- R41, R59, R251, R252: an arrival that completes a phase ends the wait of every split parked on the barrier with the old phase recorded: it has
the phase word, passes its instruction, and is due to wake. Where another split's load has emptied the register meanwhile, it keeps its place, and
the phase word waits for the register to fill. Of what it says, the model's choice, not the spec's: log 14 (the counts wrap). -/
def Says.PhaseCompletionWakesWaiters : Prop :=
  ∀ (s : State) (r : BarRef) (b : Barrier) (gid e lvl idx key n : Nat) (sync : Bool) (g : Gang) (sp : Split), s.barGet r = some b →
    s.gang gid = some g → look g.splits e = some sp → sp.run = .parked (.barrier lvl idx key sync) → s.barRef gid g lvl idx = some r →
    (∀ u ∈ unitsOfGang (g.compat s), u.2 &&& sp.mask ≠ 0 → lookD false g.recorded (barKey lvl idx u.1) = b.phase) →
    let b' := { b with arr := (b.arr + n) % 2 ^ 32 }.settle
    b'.count ≠ b.count →
    ∃ g', (s.barArrive r n).gang gid = some g' ∧ (s.barArrive r n).barGet r = some b' ∧
      (g.sFull key = true → look g'.splits e = some { sp with run := .parked .met, pc := sp.pc + 4 } ∧
        g'.sAt key = b'.word ∧ g'.sFull key = true) ∧
      (g.sFull key = false → look g'.splits e = some { sp with run := .parked (.fill (sp.pc + 4)) } ∧ g'.sAt key = g.sAt key ∧
        g'.sFull key = false ∧ ∃ x ∈ (s.barArrive r n).reqs, x.2.acc = .phase b'.word ∧ x.2.gang = gid ∧ x.2.dests = [.s key] ∧
          x.2.mask = sp.mask ∧ x.2.stage = .waiting)

/-- R201, R241, R243, R252: BAR.EXP gives its barrier the counts of its registers; FENCE waits for what its kind names, puts the later writes of its
lanes behind every access made so far where it is a release, and, as an acquire at cluster scope or above, drops the core's L1; FENCE.SHAPE waits for
the lanes' accesses and drops the shape-record cache. A fence with release also makes the next strong store of a lane a release at its scope (R236).
Of what it says, the model's choice, not the spec's: log 15, 52, 74. -/
def Says.BarrierExpectationsAndFences : Prop :=
  (∀ (s : State) (c : Ctx) (lvl : BitVec 2) (idx : BitVec 4) (d : Reg) (r : BarRef) (b : Barrier), s.ctx = some c →
    c.ready { wf := even d && (barName lvl idx && lvl != 0), also := fun c => c.hasBar lvl.toNat idx.toNat, srcs := [.s d.toNat 2 false] } = true →
    c.sp.run = .ready → s.barRef c.gid c.g lvl.toNat idx.toNat = some r → s.barGet r = some b →
    ∃ t g, exec (.barExp lvl idx d) s = .next t ∧ t.mem = s.mem ∧ t.reqs = s.reqs ∧
      t.barGet r = some (b.expect (c.sv d.toNat) (c.sv (d.toNat + 1))) ∧ t.gang c.gid = some g ∧ look g.splits c.e = some c.past ∧
      g.v = c.g.v ∧ g.k = c.g.k ∧ g.c = c.g.c) ∧
  ∀ (s : State) (c : Ctx) (scope : BitVec 3) (kind : BitVec 2), s.ctx = some c →
    let wf := scope != 0 && scope.toNat < 6
    let late := c.fenceWaits scope.toNat kind.toNat
    (c.ready { wf := wf } = true →
      (late = true → exec (.fence scope kind) s = .next s) ∧
      (late = false → ∃ t x y, exec (.fence scope kind) s = .next t ∧ (kind = 0 → x = c.g.fences ∧ y = c.g.rels) ∧
        (kind ≠ 0 → ∀ l < 32, lookD 0 x l = (if c.active.getLsbD l then s.nextId else lookD 0 c.g.fences l) ∧
          lookD 0 y l = if c.active.getLsbD l then max (lookD 0 c.g.rels l) scope.toNat else lookD 0 c.g.rels l) ∧
        { c with g := { c.g with fences := x, rels := y } }.Completes (if kind ≠ 1 ∧ 3 ≤ scope.toNat then s.clearL1 c.core else s) t {} c.past ∧
        (kind ≠ 1 → 3 ≤ scope.toNat → (t.core c.core).l1 = []))) ∧
    (c.ready {} = true → (s.openFor c.gid c.active = true → exec .fenceShape s = .next s) ∧
      (s.openFor c.gid c.active = false → ∃ t, exec .fenceShape s = .next t ∧ c.Completes { s with shapes := [] } t {} c.past))

/-! ### Tiles, the matrix engine and the accumulator store (13) -/

/-- R66, R254, R258 to R260: TCFG sets the configuration of one tile or traps; TLD empties its tile and starts the load of its image; TST puts the stores
of the image's rows and scale area in flight, or writes them to the scratchpad, and counts their bytes (R278); a row with an uncorrectable error is a
containment fault (R213). What an earlier acquire, a fence or a tile load orders before them holds them back (R235 to R237, R241). Of what it says, the
model's choice, not the spec's: log 52, 70, 91, 98 (which number counts the bytes). -/
def Obligations.TileInstructions : Prop :=
  (∀ (s : State) (c : Ctx) (k : TReg) (b : Reg), s.ctx = some c →
    c.ready { also := fun c => c.hasTile k.toNat, srcs := [.s b.toNat 1 false] } = true →
    (cfgOk c.k2 (c.sv b.toNat) = true → ∃ t, exec (.tcfg k b) s = .next t ∧ c.Completes { s with blocks := t.blocks } t {} c.past ∧
      c.OnlyBlock s t fun x => x = { c.blk with tcfg := x.tcfg } ∧ x.cfg k.toNat = c.sv b.toNat ∧ ∀ n, n ≠ k.toNat → x.cfg n = c.blk.cfg n) ∧
    (cfgOk c.k2 (c.sv b.toNat) = false → c.MayTrap s → ∃ t, exec (.tcfg k b) s = .next t ∧
      c.Enters s t 53 0 0 c.pc (if c.sp.mode = .h then .h else .s))) ∧
  (∀ (s : State) (c : Ctx) (m : CReg) (k : TReg) (b : Reg), s.ctx = some c →
    let cfg := c.cfg k.toNat
    let o := (c.sv b.toNat).toNat
    let p := c.sv (b.toNat + 1)
    c.ready { wf := even b, also := fun c => c.hasTile k.toNat,
              srcs := [.s b.toNat 2 false, .c m.toNat fun c => imageSpace m (c.sv (b.toNat + 1)) == 0] } = true →
    (cfg = 0 → c.MayTrap s → ∃ t, exec (.tld m k b) s = .next t ∧ c.Enters s t 53 0 0 c.pc (if c.sp.mode = .h then .h else .s)) ∧
    (c.tileChecks m cfg permR o p.toNat (imageSpace m p) = none → c.blk.tileFull k.toNat = true → c.tileUnread k.toNat = false →
      c.loadWait = false → ∃ t op, exec (.tld m k b) s = .next t ∧
        c.Completes { s with blocks := t.blocks, tileOps := t.tileOps, nextId := s.nextId + 1 } t {} c.past ∧
        (c.OnlyBlock s t fun x => x = { c.blk with tileEmpty := x.tileEmpty } ∧ x.tileFull k.toNat = false ∧
          ∀ n, n ≠ k.toNat → x.tileFull n = c.blk.tileFull n) ∧
        look t.tileOps s.nextId = some op ∧ (∀ i, i ≠ s.nextId → look t.tileOps i = look s.tileOps i) ∧ op.block = c.g.block ∧
        op.tile = k.toNat ∧ op.cfg = cfg ∧ op.cap = c.cv m.toNat ∧ op.offset = o ∧ op.pitch = p.toNat % 2 ^ 31 ∧
        op.space = imageSpace m p ∧ op.next = 0 ∧ op.fault = none ∧ op.mask = c.active ∧ op.core = c.core ∧ op.part = c.pid) ∧
    (c.tileChecks m cfg permR o p.toNat (imageSpace m p) = none → c.blk.tileFull k.toNat = false ∨ c.tileUnread k.toNat = true ∨ c.loadWait = true →
      exec (.tld m k b) s = .next s)) ∧
  ∀ (s : State) (c : Ctx) (m : CReg) (k : TReg) (b : Reg), s.ctx = some c →
    let cfg := c.cfg k.toNat
    let o := (c.sv b.toNat).toNat
    let p := c.sv (b.toNat + 1)
    let r := cfgRows cfg
    let runs := (imageRegions cfg r o (p.toNat % 2 ^ 31)).zipIdx.map fun x =>
      (x.1.1, if x.2 < r then c.blk.imageRow k.toNat cfg x.2 else c.blk.imageScales k.toNat cfg r)
    let place := fun (x : Nat × List Byte) => (c.padPlace (imageSpace m p == 2) x.1 x.2.length).getD (0, 0)
    c.ready { wf := even b, also := fun c => c.hasTile k.toNat,
              srcs := [.s b.toNat 2 false, .c m.toNat fun c => imageSpace m (c.sv (b.toNat + 1)) == 0] } = true →
    let held := c.mustWait || (imageSpace m p != 0 && (c.padWait || runs.any fun x => c.padRead c.active [place x] x.2.length))
    let moved := s.count c.core c.pid 0x13 (runs.foldl (fun n x => n + x.2.length) 0)
    c.tileChecks m cfg permW o p.toNat (imageSpace m p) = none → c.blk.tileFull k.toNat = true →
    (held = true → exec (.tst m k b) s = .next s) ∧
    (held = false → c.blk.tileHit k.toNat cfg = true → c.MayTrap s → ∃ t, exec (.tst m k b) s = .next t ∧ c.Enters s t 20 0 0 c.pc c.trapMode) ∧
    (held = false → c.blk.tileHit k.toNat cfg = false → ∃ t, exec (.tst m k b) s = .next t ∧
      (imageSpace m p = 0 → c.Completes (moved.sent (runs.flatMap fun x => (linePieces 20 ((c.cv m.toNat).at x.1) x.2).map fun y =>
        c.req s.nextId 32 (.store y.2) y.1 y.2.length (c.cv m.toNat) [])) t {} c.past) ∧
      (imageSpace m p ≠ 0 → c.Completes { moved with blocks := t.blocks } t {} c.past ∧
        (∀ (i : Nat) (z : Nat × List Byte), runs[i]? = some z → (∀ (j : Nat) (w : Nat × List Byte), i < j → runs[j]? = some w →
            (place w).1 ≠ (place z).1 ∨ (place w).2 + w.2.length ≤ (place z).2 ∨ (place z).2 + z.2.length ≤ (place w).2) →
          ∃ y, t.block (place z).1 = some y ∧ y.padBytes (place z).2 z.2.length = z.2) ∧
        ∀ id x, s.block id = some x → ∃ y, t.block id = some y ∧
        y = { x with pad := y.pad, padTag := y.padTag, padPoison := y.padPoison } ∧
        ∀ n, (∀ z ∈ runs, (place z).1 = id → n < (place z).2 ∨ (place z).2 + z.2.length ≤ n) → lookD 0 y.pad n = lookD 0 x.pad n))

/-- R261, R264 to R266: MMA, MMAQ and MMA.S whose tiles, bank and format pass their checks enter the engine's order, with the operands, the k range, the
bias and the sign that the rules name. Of what it says, the model's choice, not the spec's: log 27. -/
def Obligations.MatrixInstructionsEnterTheEngine : Prop :=
  let entered := fun (s : State) (c : Ctx) (t : State) (P : MatrixOp → Prop) => ∃ op,
    c.Completes { s with matrix := s.matrix ++ [op], nextId := s.nextId + 1 } t {} c.past ∧ op.id = s.nextId ∧ op.core = c.core ∧
      op.part = c.pid ∧ op.gang = c.gid ∧ op.block = c.g.block ∧ op.started = false ∧ op.fault = none ∧ P op
  (∀ (s : State) (c : Ctx) (tb ta : TReg) (d : CReg), s.ctx = some c →
    c.ready { coll := true, also := fun c => c.hasTile ta.toNat && c.hasTile tb.toNat && c.hasBank d.toNat } = true →
    let a := c.cfg ta.toNat
    let b := c.cfg tb.toNat
    ((a = 0 ∨ b = 0) → c.MayTrap s → ∃ t, exec (.mma tb ta d) s = .next t ∧ c.Enters s t 53 0 0 c.pc (if c.sp.mode = .h then .h else .s)) ∧
    (a ≠ 0 → b ≠ 0 → matFormat (cfgFormat a) = true → cfgFormat a = cfgFormat b → cfgCols a = cfgCols b →
      ((c.blk.bankI d.toNat).alloc = false → c.MayTrap s → ∃ t, exec (.mma tb ta d) s = .next t ∧
        c.Enters s t 50 0 0 c.pc (if c.sp.mode = .h then .h else .s)) ∧
      ((c.blk.bankI d.toNat).alloc = true → c.blk.tileFull ta.toNat = true → c.blk.tileFull tb.toNat = true →
        ∃ t, exec (.mma tb ta d) s = .next t ∧ entered s c t fun op => op.bank = d.toNat ∧ op.ta = ta.toNat ∧ op.tb = tb.toNat ∧ op.cfgA = a ∧
          op.cfgB = b ∧ op.kFirst = 0 ∧ op.kCount = cfgCols a ∧ op.bias = 0 ∧ op.neg = false ∧ op.weights = none))) ∧
  (∀ (s : State) (c : Ctx) (f : CReg) (tb ta : TReg) (d : CReg), s.ctx = some c →
    c.ready { coll := true, k2 := false, also := fun c => c.hasTile ta.toNat && c.hasTile tb.toNat && c.hasBank d.toNat,
              srcs := [.s (4 * f.toNat) 4 false] } = true →
    let a := c.cfg ta.toNat
    let b := c.cfg tb.toNat
    let first := (c.sv (4 * f.toNat)).toNat
    let count := (c.sv (4 * f.toNat + 1)).toNat
    let bias := (c.sv (4 * f.toNat + 2)).toInt
    a ≠ 0 → b ≠ 0 → matFormat (cfgFormat a) = true → matFormat (cfgFormat b) = true → cfgCols a = cfgCols b →
    first % 16 = 0 → 0 < count → (isSb (cfgFormat a) = true ∨ isSb (cfgFormat b) = true → count % 16 = 0) → first + count ≤ cfgCols a →
    -64 ≤ bias → bias ≤ 63 → (c.sv (4 * f.toNat + 3)).toNat < 2 → (c.blk.bankI d.toNat).alloc = true →
    c.blk.tileFull ta.toNat = true → c.blk.tileFull tb.toNat = true →
    ∃ t, exec (.mmaq f tb ta d) s = .next t ∧ entered s c t fun op => op.bank = d.toNat ∧ op.ta = ta.toNat ∧ op.tb = tb.toNat ∧ op.cfgA = a ∧
      op.cfgB = b ∧ op.kFirst = first ∧ op.kCount = count ∧ op.bias = bias ∧ op.neg = (c.sv (4 * f.toNat + 3)).getLsbD 0 ∧ op.weights = none) ∧
  ∀ (s : State) (c : Ctx) (m : CReg) (a : Reg) (ta : BitVec 2) (d : CReg), s.ctx = some c →
    c.ready { coll := true, wf := even a, also := fun c => c.hasTile ta.toNat && c.hasBank d.toNat, srcs := [.s a.toNat 2 false, .c m.toNat] } = true →
    let cfg := c.cfg ta.toNat
    let o := (c.sv a.toNat).toNat
    let x := c.sv (a.toNat + 1)
    let p := 16 * (x.extractLsb' 16 16).toNat
    let n := (x.extractLsb' 0 7).toNat
    let cap := c.cv m.toNat
    cfg ≠ 0 → matFormat (cfgFormat cfg) = true → x.extractLsb' 7 9 = 0 → 0 < n → n ≤ 64 → (1 < n → rowBytes cfg ≤ p) →
    (∀ g ∈ imageRegions cfg n o p, check14 cap 0 permMS g.1 g.2 = none) → isHost cap.flat = false → o % 16 = 0 →
    (c.blk.bankI d.toNat).alloc = true → c.blk.tileFull ta.toNat = true → c.mustWait = false →
    ∃ t, exec (.mmaS m a ta d) s = .next t ∧ entered s c t fun op => op.bank = d.toNat ∧ op.ta = ta.toNat ∧ op.cfgA = cfg ∧ op.cfgB = cfg ∧
      op.kFirst = 0 ∧ op.kCount = cfgCols cfg ∧ op.bias = 0 ∧ op.neg = false ∧ op.weights = some (cap, o, p, n)

/-- R134, R146, R208, R267 to R270, R275: the accumulator instructions on a bank with no matrix instruction outstanding. ACC.QUANT packs the codes and the
scale words of its blocks, which QuantComputes says, into the tile's rows. -/
def Obligations.AccumulatorInstructions : Prop :=
  ∀ (s : State) (c : Ctx) (d : CReg), s.ctx = some c → c.bankBusy d.toNat = false →
    let i := c.blk.bankI d.toNat
    let mode : Mode := if c.sp.mode = .h then .h else .s
    let others := fun (x : Machine.Block) => ∀ n, n ≠ d.toNat → x.bankI n = c.blk.bankI n ∧ ∀ r < 64, ∀ k < 64, x.elem n r k = c.blk.elem n r k
    let cleared := fun (t : State) (info : BankInfo) => c.Completes { s with blocks := t.blocks } t {} c.past ∧ c.OnlyBlock s t fun x =>
      x = { c.blk with bank := x.bank, bankInfo := x.bankInfo } ∧ x.bankI d.toNat = info ∧ others x ∧
        ∀ r < 64, ∀ k < 64, x.elem d.toNat r k = 0
    (c.ready { also := fun c => c.hasBank d.toNat } = true →
      (i.alloc = false → ∃ t, exec (.accAlloc d) s = .next t ∧ cleared t { alloc := true, cause := 0, addr := 0 }) ∧
      (i.alloc = true → ∃ t, exec (.accAlloc d) s = .next t ∧ c.Completes s t {} c.past) ∧
      (∃ t, exec (.accFree d) s = .next t ∧ cleared t { alloc := false, cause := 0, addr := 0 }) ∧
      (i.alloc = true → ∃ t, exec (.accZero d) s = .next t ∧ cleared t { alloc := true, cause := 0, addr := 0 }) ∧
      (i.alloc = false → c.MayTrap s → ∃ t, exec (.accZero d) s = .next t ∧ c.Enters s t 50 0 0 c.pc mode)) ∧
    (∀ (f : CReg) (b : Reg), c.ready { also := fun c => c.hasBank d.toNat, srcs := [.s (4 * f.toNat) 2 false], dsts := [.v b.toNat 1] } = true →
      let row := (c.sv (4 * f.toNat)).toNat
      let col := (c.sv (4 * f.toNat + 1)).toNat
      row < 64 → col < 64 →
      ((i.alloc = false ∨ i.cause = 0) → ∃ t, exec (.accRd f d b) s = .next t ∧ (∀ l, c.Lane l → c.EmptyV t b.toNat l) ∧
        (let u := s.sent ((lanesOf c.live).map fun l =>
            { c.req s.nextId l .onCore 0 4 Cap.null [.v (c.vk b.toNat)] with
              stage := .replied [c.blk.elem d.toNat row ((col + l) % 64)] false, acq := false })
        c.Completes { u with blocks := t.blocks } t { v := [c.vk b.toNat] } c.past) ∧
        c.OnlyBlock s t fun x => x = { c.blk with accstat := c.blk.accstat || !i.alloc }) ∧
      (i.alloc = true → i.cause ≠ 0 → i.cause ≠ 65 → i.cause < 256 → i.addr < 2 ^ 64 → c.MayTrap s → ∃ t, exec (.accRd f d b) s = .next t ∧
        c.Enters s t i.cause i.addr 0 c.next mode)) ∧
    (∀ (f : CReg) (b : Reg),
      c.ready { also := fun c => c.hasBank d.toNat, srcs := [.s (4 * f.toNat) 2 false, .v b.toNat 1 false .none] } = true →
      let row := (c.sv (4 * f.toNat)).toNat
      let col := (c.sv (4 * f.toNat + 1)).toNat
      row < 64 → col < 64 → i.alloc = true → i.cause = 0 → ∃ t, exec (.accWr f d b) s = .next t ∧
        c.Completes { s with blocks := t.blocks } t {} c.past ∧ c.OnlyBlock s t fun x => x = { c.blk with bank := x.bank } ∧ others x ∧
          (∀ l, c.Lane l → x.elem d.toNat row ((col + l) % 64) = c.v b.toNat .none l) ∧
          ∀ r < 64, ∀ k < 64, (r ≠ row ∨ ∀ l, c.Lane l → k ≠ (col + l) % 64) → x.elem d.toNat r k = c.blk.elem d.toNat r k) ∧
    ∀ (k : TReg), c.ready { k2 := false, also := fun c => c.hasBank d.toNat && c.hasTile k.toNat } = true →
      let cfg := c.cfg k.toNat
      cfg ≠ 0 → isSb (cfgFormat cfg) = true → cfgCols cfg ≤ 64 → cfgRows cfg ≤ 64 → c.tileUnread k.toNat = false →
      c.blk.tileFull k.toNat = true → (i.alloc = false ∨ i.cause = 0) → ∃ t, exec (.accQuant d k) s = .next t ∧
        c.Completes { s with blocks := t.blocks } t {} c.past ∧ c.OnlyBlock s t fun x =>
          x = { c.blk with tile := x.tile, tileBad := x.tileBad, scale := x.scale, scaleBad := x.scaleBad, accstat := c.blk.accstat || !i.alloc } ∧
          (let w := elemBits (cfgFormat cfg) - 1
          ∀ r < cfgRows cfg, leNat (x.tileRow k.toNat r) < 2 ^ (cfgCols cfg * (w + 1)) ∧ ∀ j < cfgCols cfg / 16,
            let q := quantBlock w ((List.range 16).map fun i => c.blk.elem d.toNat r (16 * j + i))
            x.scaleAt k.toNat r j = BitVec.ofNat 16 q.1 ∧
              ∀ i < 16, leNat (x.tileRow k.toNat r) / 2 ^ ((16 * j + i) * (w + 1)) % 2 ^ (w + 1) = q.2.getD i 0) ∧
          ∀ n r, n < 8 → r < 64 → (n ≠ k.toNat ∨ cfgRows cfg ≤ r) → x.tileRow n r = c.blk.tileRow n r

/-- R271 to R274: ACC.DRAIN and ACC.DRAIN.ADD whose operands pass the checks take the band's values as the bank holds them and start the drain to their
target; a bank whose elements are not allocated is read as zeros. Its sectors stay behind what a fence with release orders before them (R241). Of what
it says, the model's choice, not the spec's: log 70, 93. -/
def Obligations.DrainsTakeTheBand : Prop :=
  ∀ row ∈ [(Instr.accDrain, false), (Instr.accDrainAdd, true)], ∀ (s : State) (c : Ctx) (m d : CReg) (b : Reg), s.ctx = some c →
    c.ready { wf := quad b, also := fun c => c.hasBank d.toNat,
              srcs := [.s b.toNat 4 false, .c m.toNat fun c => (c.sv (b.toNat + 3)).extractLsb' 7 2 == 0] } = true →
    let w := fun i => c.sv (b.toNat + i)
    let first := (w 0).toNat
    let cols := ((w 1).extractLsb' 16 7).toNat
    let rows := ((w 1).extractLsb' 0 7).toNat
    let off := (w 2).toNat
    let pitch := 16 * ((w 3).extractLsb' 16 16).toNat
    let target := ((w 3).extractLsb' 7 2).toNat
    let lvl := ((w 3).extractLsb' 4 2).toNat
    let idx := ((w 3).extractLsb' 0 4).toNat
    let i := c.blk.bankI d.toNat
    first < 64 → (w 1).extractLsb' 23 9 = 0 → (w 1).extractLsb' 7 9 = 0 → (w 3).extractLsb' 9 7 = 0 → first % 8 = 0 → rows % 8 = 0 →
    cols % 8 = 0 → 0 < rows → 0 < cols → cols ≤ 64 → first + rows ≤ 64 → 4 * cols ≤ pitch → target < 3 → (target ≠ 0 → m = 0) →
    ((w 3).getLsbD 6 = true ∧ lvl = 0 ∧ idx = 0 ∨ (w 3).getLsbD 6 = false ∧ lvl ≠ 0 ∧ c.hasBar lvl idx = true) →
    (∀ r < rows, c.regionCheck target (c.cv m.toNat) permW (off + r * pitch) (4 * cols) = none) → off % 32 = 0 → pitch % 32 = 0 →
    (∀ x ∈ s.drains, ¬(x.2.block = c.g.block ∧ x.2.bank = d.toNat ∧ first < x.2.first + x.2.rows ∧ x.2.first < first + rows)) →
    c.bankBusy d.toNat = false → c.mustWait = false →
    ∃ t dr, exec (row.1 m d b) s = .next t ∧ c.Completes { s with blocks := t.blocks, drains := t.drains, nextId := s.nextId + 1 } t {} c.past ∧
      (c.OnlyBlock s t fun x => x = { c.blk with accstat := c.blk.accstat || !i.alloc }) ∧ look t.drains s.nextId = some dr ∧
      (∀ k, k ≠ s.nextId → look t.drains k = look s.drains k) ∧ dr.block = c.g.block ∧ dr.bank = d.toNat ∧ dr.first = first ∧ dr.rows = rows ∧
      dr.cols = cols ∧ dr.space = target ∧ dr.cap = c.cv m.toNat ∧ dr.offset = off ∧ dr.pitch = pitch ∧ dr.add = row.2 ∧ dr.next = 0 ∧ dr.wall = c.g.fenceOf c.active ∧
      dr.barrier = (if (w 3).getLsbD 6 then none else s.barOf c.g.block lvl idx) ∧
      (∀ r < rows, ∀ k < cols, dr.data.getD (r * cols + k) 0 = c.blk.elem d.toNat (first + r) k) ∧
      dr.fault = if i.alloc = true ∧ i.cause ≠ 0 then some (i.cause, i.addr) else none

/-- R129, R132, R261 to R263: what a matrix instruction makes of one bank element. An SB element has the value of its scale word, and M = 0 is +0;
products are exact; a group of products is summed exactly, scaled by the bias and the sign, and rounded once; the groups are the runs of k with the same
k div 16, added in ascending order; and a NaN element, a NaN operand in the k range, and an invalid group give the canonical NaN. -/
def Says.MatrixElementsComputed : Prop :=
  (∀ x ∈ [((4 : Nat), (7 : Nat)), (5, 4), (6, 2)], ∀ k scale code : Nat, scale < 2 ^ 16 → code < 2 ^ (x.2 + 1) →
    let m := code % 2 ^ x.2
    elemVal x.1 k (code + scale * 65536) = if scale / 256 = 255 then .nan
      else .fin (decide (code ≠ m) && m != 0) m (((scale / 256 : Nat) : Int) - 126 - ((scale / 4 ^ (k % 16 / 4) % 4 : Nat) : Int) - (x.2 : Int))) ∧
  (∀ k x, elemVal 1 k x = bf16.val x ∧ elemVal 2 k x = f16.val x) ∧
  (∀ s t m n e k, prodVal (.fin s m e) (.fin t n k) = .fin (s != t) (m * n) (e + k) ∧ prodVal (.inf s) (.inf t) = .inf (s != t) ∧
    prodVal (.inf s) (.fin t n k) = (if n = 0 then .nan else .inf (s != t)) ∧ prodVal (.fin t n k) (.inf s) = (if n = 0 then .nan else .inf (t != s))) ∧
  (∀ (bias : Int) (neg : Bool) (ps : List FVal), ps ≠ [] →
    (.nan ∈ ps ∨ .inf true ∈ ps ∧ .inf false ∈ ps → groupSum bias neg ps = f32.nan) ∧
    (∀ s, .nan ∉ ps → .inf s ∈ ps → .inf (!s) ∉ ps → groupSum bias neg ps = f32.signed (s != neg) f32.inf) ∧
    ∀ q : Int, (∀ p ∈ ps, ∃ s m e, p = .fin s m e ∧ q ≤ e) → (∃ s m, .fin s m q ∈ ps) →
      let total : Int := (ps.map fun p => match p with
        | .fin s m e => signedInt s (m * 2 ^ (e - q).toNat)
        | _ => 0).sum
      let allNegZero := ps.all fun p => match p with
        | .fin s m _ => s && m == 0
        | _ => false
      (total ≠ 0 → groupSum bias neg ps = f32.round 0 (decide (total < 0) != neg) total.natAbs (q + bias)) ∧
      (total = 0 → groupSum bias neg ps = f32.signed (allNegZero != neg) 0)) ∧
  ∀ (op : MatrixOp) (c : Word) (a b : List Nat),
    let va := fun k => elemVal (cfgFormat op.cfgA) k (a.getD k 0)
    let vb := fun k => elemVal (cfgFormat op.cfgB) k (b.getD k 0)
    let isNan := f32.isNan c.toNat = true ∨ ∃ k, op.kFirst ≤ k ∧ k < op.kFirst + op.kCount ∧ (va k = .nan ∨ vb k = .nan)
    let n := min op.kCount (16 - op.kFirst % 16)
    (isNan → macElem op c a b = 0x7FC00000) ∧ (¬isNan → op.kCount = 0 → macElem op c a b = c) ∧
    (¬isNan → op.kCount ≠ 0 → macElem op c a b =
      macElem { op with kFirst := op.kFirst + n, kCount := op.kCount - n }
        (BitVec.ofNat 32 (f32.add 0 c.toNat (groupSum op.bias op.neg ((List.range n).map fun i => prodVal (va (op.kFirst + i)) (vb (op.kFirst + i)))))) a b)

/-- R261, R265 to R267: the engine starts the next instruction of its core when its tiles are full, with the operands read then; at its end
every element of the bank's update stands at once, or, after a fault, none of it and the bank's record of the fault. A tile row with an
uncorrectable error makes the update fail with cause 20 (R213). Of what it says, the model's choice, not the spec's: log 91. -/
def Says.MatrixEngineReadsAndUpdates : Prop :=
  (∀ (s : State) (core : Nat) (op : MatrixOp) (b : Machine.Block) (p : Part), (s.matrix.find? fun o => o.core == core && !o.started) = some op →
    s.block op.block = some b → s.part op.part = some p → (s.core core).occ = some op.part → b.tileFull op.ta = true →
    (op.weights = none → b.tileFull op.tb = true) → (∀ a, op.head = some a → s.outranked core a = false) → s.weightsWait op = none →
    op.fault = none →
    let hit := b.tileHit op.ta op.cfgA || (op.weights.isNone && b.tileHit op.tb op.cfgB)
    ∃ t op', exec (.matrixStart core) s = .next t ∧
      t = { s with matrix := t.matrix, cores := t.cores, slices := t.slices, tally := t.tally, raised := t.raised } ∧
      (op.weights = none → t.slices = s.slices ∧ t.tally = s.tally ∧ t.raised = s.raised) ∧
      t.matrix = (s.matrix.map fun (o : MatrixOp) => if o.id = op.id then op' else o) ∧
      op' = { op with started := true, rowsA := b.tileElems op.ta op.cfgA, rowsB := op'.rowsB, fault := op'.fault } ∧
      (t.core core).matrixBusy = (s.core core).matrixBusy + op.occupancy ∧
      (hit = true → op'.fault = some (20, 0)) ∧
      (op.weights = none → op'.rowsB = b.tileElems op.tb op.cfgB ∧ (hit = false → op'.fault = none)) ∧
      ∀ w, op.weights = some w → hit = false → (∀ rows, s.streamed op p w = .ok rows → op'.rowsB = rows ∧ op'.fault = none) ∧
        ∀ e, s.streamed op p w = .error e → op'.fault = some e) ∧
  ∀ (s : State) (core : Nat) (op : MatrixOp) (b : Machine.Block), (s.matrix.find? fun o => o.core == core) = some op → op.started = true →
    s.block op.block = some b → op.rowsA.length ≤ 64 → op.rowsB.length ≤ 64 → (b.bankI op.bank).alloc = true →
    ∃ t b', exec (.matrixCompletion core) s = .next t ∧ t = { s with matrix := t.matrix, blocks := t.blocks, cores := t.cores } ∧
      t.matrix = s.matrix.filter (fun o => o.id != op.id) ∧ t.block op.block = some b' ∧
      (∀ id, id ≠ op.block → t.block id = s.block id) ∧ b' = { b with bank := b'.bank, bankInfo := b'.bankInfo } ∧
      (∀ cause addr, op.fault = some (cause, addr) → b'.bank = b.bank ∧
        b'.bankI op.bank = if (b.bankI op.bank).cause = 0 then { alloc := true, cause := cause, addr := addr } else b.bankI op.bank) ∧
      (op.fault = none → (b.bankI op.bank).cause ≠ 0 → b' = b) ∧
      (op.fault = none → (b.bankI op.bank).cause = 0 → b'.bankInfo = b.bankInfo ∧
        (∀ i < op.rowsA.length, ∀ j < op.rowsB.length, b'.elem op.bank i j =
          macElem op (b.elem op.bank i j) (op.rowsA.getD i []) (op.rowsB.getD j [])) ∧
        ∀ n i j, i < 64 → j < 64 → (n ≠ op.bank ∨ op.rowsA.length ≤ i ∨ op.rowsB.length ≤ j) →
          lookD 0 b'.bank (n * 4096 + i * 64 + j) = lookD 0 b.bank (n * 4096 + i * 64 + j))

/-- R134, R206, R255, R259, R271 to R274: a tile load lands its rows in order, and then the scale words of its rows, and the tile is full after the last; a
drain's sectors go out in order, each 32 bytes at its own place of memory or of a scratchpad, and each counts at the drain's barrier; the first one rejected,
and a bank that has recorded a fault, complete the barrier as an error phase with nothing written. All come after what the lanes did earlier to the same
bytes, and a drain after what a fence with release orders before it (R235, R241). Of what it says, the model's choice, not the spec's: log 72. -/
def Obligations.TileFillsAndDrainSectors : Prop :=
  (∀ (s : State) (id off size : Nat) (x : TileOp) (b : Machine.Block), look s.tileOps id = some x → s.block x.block = some b →
    (imageRegions x.cfg (cfgRows x.cfg) x.offset x.pitch)[x.next]? = some (off, size) → (s.core x.core).occ = some x.part →
    let held := x.space = 0 ∧ (s.outranked x.core (x.cap.at off) = true ∨ s.bytesBehind x.gang x.mask id (x.cap.at off) size false = true)
    let rows := cfgRows x.cfg
    let per := scalesPerRow x.cfg
    let frame := fun (t : State) (b' : Machine.Block) =>
      t = { s with tileOps := t.tileOps, blocks := t.blocks, slices := t.slices, cores := t.cores, tally := t.tally, raised := t.raised } ∧
      t.block x.block = some b' ∧ (∀ k, k ≠ x.block → t.block k = s.block k) ∧
      (x.next + 1 < x.steps ∨ x.fault.isSome = true → look t.tileOps id = some { x with next := x.next + 1 } ∧ b'.tileEmpty = b.tileEmpty) ∧
      (x.steps ≤ x.next + 1 → x.fault = none → look t.tileOps id = none ∧ b'.tileFull x.tile = true)
    (held → exec (.tileFill id) s = .next s) ∧
    (∀ bs, ¬held → s.readSpace x.core x.part x.block x.space x.cap off size = .bytes bs → bs.length = size → x.next < rows → rows ≤ 64 →
      cfgCols x.cfg * elemBits (cfgFormat x.cfg) ≤ 1024 → x.tile < 8 →
      ∃ t b', exec (.tileFill id) s = .next t ∧ frame t b' ∧ b' = { b with tile := b'.tile, tileBad := b'.tileBad, tileEmpty := b'.tileEmpty } ∧
        leNat (b'.tileRow x.tile x.next) = leNat bs % 2 ^ (cfgCols x.cfg * elemBits (cfgFormat x.cfg)) ∧
        (∀ n r, n < 8 → r < 64 → n ≠ x.tile ∨ r ≠ x.next → b'.tileRow n r = b.tileRow n r) ∧
        ∀ n, lookD false b'.tileBad n = if n / 16 = x.tile * 64 + x.next then false else lookD false b.tileBad n) ∧
    (∀ bs, ¬held → s.readSpace x.core x.part x.block x.space x.cap off size = .bytes bs → x.next = rows → rows ≤ 64 → per ≤ 16 → x.tile < 8 →
      ∃ t b', exec (.tileFill id) s = .next t ∧ frame t b' ∧ b' = { b with scale := b'.scale, scaleBad := b'.scaleBad, tileEmpty := b'.tileEmpty } ∧
        (∀ r < rows, ∀ j < per, b'.scaleAt x.tile r j = BitVec.ofNat 16 (leNat ((bs.drop (2 * (r * per + j))).take 2))) ∧
        ∀ n r j, n < 8 → r < 64 → j < 16 → n ≠ x.tile ∨ rows ≤ r ∨ per ≤ j → b'.scaleAt n r j = b.scaleAt n r j) ∧
    ∀ cause addr, ¬held → s.readSpace x.core x.part x.block x.space x.cap off size = .fail cause addr → x.fault = none →
      ∃ t, exec (.tileFill id) s = .next t ∧ t = { s with tileOps := t.tileOps } ∧
        look t.tileOps id = some { x with next := x.next + 1, fault := some (cause, addr) }) ∧
  ∀ (s : State) (id : Nat) (d : Drain), look s.drains id = some d → d.next < d.sectors → (s.core d.core).occ = some d.part →
    s.drainWaits id d = false →
    let a := d.cap.at (d.offsetOf d.next)
    let off := d.offsetOf d.next
    let counts := fun (t : State) => (d.next + 1 < d.sectors → look t.drains id = some { d with next := d.next + 1 }) ∧
      (d.next + 1 = d.sectors → look t.drains id = none) ∧
      ∀ r b, d.barrier = some r → s.barGet r = some b → t.barGet r = some { b with delSec := (b.delSec + 1) % 2 ^ 32 }.settle
    let fails := fun (t : State) (cause : Nat) => t.mem = s.mem ∧ t.hostMem = s.hostMem ∧
      (∀ k x, s.block k = some x → ∃ y, t.block k = some y ∧ y.pad = x.pad) ∧
      ∀ r b, d.barrier = some r → s.barGet r = some b → ∃ b', t.barGet r = some b' ∧ b'.phase = !b.phase ∧ b'.error = true ∧
        (b.error = false → b'.code = BitVec.ofNat 16 (0x0400 + cause))
    (∀ cause addr, d.fault = some (cause, addr) → d.next = 0 → ∃ t, exec (.drainDelivery id) s = .next t ∧ fails t cause ∧
      (d.barrier.isSome = true → look t.drains id = none) ∧
      (d.barrier = none → t = { s with drains := set s.drains id { d with next := d.sectors } })) ∧
    (d.fault = none → d.space = 0 → s.outranked d.core a = false → s.drainBehind id d a = false →
      (s.reach d.core d.part d.cap.colour d.cap.gen true a 32 = .ok → (d.add = true → s.poisoned a 32 = false) →
        ∃ t, exec (.drainDelivery id) s = .next t ∧ s.Wrote t d.part a (d.sector d.next (s.bytesAt (s.pasid d.part) a 32)) ∧ counts t) ∧
      ∀ cause addr, s.reach d.core d.part d.cap.colour d.cap.gen true a 32 = .fail cause addr →
        ∃ t, exec (.drainDelivery id) s = .next t ∧ fails t cause) ∧
    (d.fault = none → d.space ≠ 0 →
      (s.padPlace d.block (d.space == 2) off 32 = none → ∃ t, exec (.drainDelivery id) s = .next t ∧ fails t 2) ∧
      ∀ k o b, s.padPlace d.block (d.space == 2) off 32 = some (k, o) → s.block k = some b →
        let held := s.padUnread d.gang d.mask id k o 32 = true ∨ d.wall ≠ 0 ∧ s.openBefore d.gang d.mask (min d.wall id) = true
        (held → exec (.drainDelivery id) s = .next s) ∧
        (¬held → d.add = true → b.padPoisoned o 32 = true → ∃ t, exec (.drainDelivery id) s = .next t ∧ fails t 20) ∧
        (¬held → (d.add = true → b.padPoisoned o 32 = false) → ∃ t b', exec (.drainDelivery id) s = .next t ∧ t.mem = s.mem ∧
          t.hostMem = s.hostMem ∧ t.block k = some b' ∧ b'.padBytes o 32 = d.sector d.next (b.padBytes o 32) ∧
          (∀ n, n < o ∨ o + 32 ≤ n → lookD 0 b'.pad n = lookD 0 b.pad n) ∧ counts t))

/-! ### The flue (14) -/

/-- R283 to R289: the flue instructions check their slots and put one operation per live lane on its way, a boarding with the read of its memory; the
registers that a peek or a capture answers are empty, FLUE.WAIT parks its split, and FLUE.REV writes the revolution. Of what it says, the model's
choice, not the spec's: log 30. -/
def Obligations.FlueInstructionsSendOperations : Prop :=
  (∀ row ∈ [(Instr.flueBoard, true), (Instr.flueAlight, false)], ∀ (s : State) (c : Ctx) (f : CReg) (ord rel : Bool) (a : Reg) (m : CReg),
    s.ctx = some c → c.ready { wf := even a, k2 := false, srcs := [.v a.toNat 2 false .none, .c f.toNat, .c m.toNat] } = true →
    let cap := c.cv f.toNat
    let mem := c.cv m.toNat
    let slot := fun l => (c.v a.toNat .none l).toNat
    let off := fun l => ((c.v (a.toNat + 1) .none l).toNat : Int)
    let ls := lanesOf c.live
    (∀ l, c.Lane l → flueCheck cap permW 1 (slot l) = none ∧ check15 mem (if row.2 then permR else permW) (off l) 16 16 = none) →
    ∃ t, exec (row.1 f ord rel a m) s = .next t ∧
      c.Completes { s with flueOps := t.flueOps, reqs := t.reqs, nextId := t.nextId } t {} c.past ∧
      ∀ i, i < ls.length →
        let l := ls.getD i 0
        let id := s.nextId + 1 + (if row.2 then 2 * i else i)
        look t.flueOps id = some (c.flueOp s.nextId l (if row.2 then .board none else .alight false) cap (slot l) mem (mem.at (off l)) [] ord
          false rel) ∧
        (row.2 = true → (id + 1, { c.req s.nextId l (.board id) (mem.at (off l)) 16 mem [] with acq := false }) ∈ t.reqs)) ∧
  (∀ (s : State) (c : Ctx) (f : CReg) (ord acq : Bool) (a b : Reg), s.ctx = some c →
    let cap := c.cv f.toNat
    let slot := fun l => (c.v a.toNat .none l).toNat
    let ls := lanesOf c.live
    let sent := fun (t : State) (mk : Nat → FlueOp) => (∀ i, i < ls.length → look t.flueOps (s.nextId + 1 + i) = some (mk (ls.getD i 0))) ∧
      t.nextId = s.nextId + 1 + ls.length ∧
      ∀ k, k ≤ s.nextId ∨ s.nextId + ls.length < k → look t.flueOps k = look s.flueOps k
    (c.ready { wf := quad b, k2 := false, srcs := [.v a.toNat 1 false .none, .c f.toNat], dsts := [.v b.toNat 4] } = true →
      (∀ l, c.Lane l → flueCheck cap permR 1 (slot l) = none) → ∃ t, exec (.fluePeek f ord acq a b) s = .next t ∧
        let keys := (List.range 4).map fun i => c.vk (b.toNat + i)
        (∀ i < 4, ∀ l, c.Lane l → c.EmptyV t (b.toNat + i) l) ∧
        c.Completes { s with flueOps := t.flueOps, nextId := t.nextId } t { v := keys } c.past ∧
        sent t fun l => c.flueOp s.nextId l .peek cap (slot l) Cap.null 0 keys ord acq false) ∧
    ∀ row ∈ [(Instr.flueWaitEq, false), (Instr.flueWaitNe, true)],
      c.ready { k2 := false, srcs := [.v a.toNat 1 false .none, .v b.toNat 1 false .none, .c f.toNat] } = true →
      (∀ l, c.Lane l → flueCheck cap permR 1 (slot l) = none) → ∃ t, exec (row.1 f ord acq a b) s = .next t ∧
        (c.live = 0 → c.Completes { s with nextId := s.nextId + 1 } t {} c.past) ∧
        (c.live ≠ 0 → c.Completes { s with flueOps := t.flueOps, nextId := t.nextId } t {} { c.sp with run := .parked (.flue c.next) } ∧
          sent t fun l => c.flueOp s.nextId l (.wait row.2 (c.v b.toNat .none l)) cap (slot l) Cap.null 0 [] ord acq false)) ∧
  (∀ row ∈ [(Instr.flueCap, 1), (.flueCapS2, 2), (.flueCapS4, 4)], ∀ (s : State) (c : Ctx) (f : CReg) (ord : Bool) (ordering : BitVec 2)
      (op : BitVec 3) (a b : Reg), s.ctx = some c →
    let n := row.2
    let k := if op = 7 then 8 * n else 4 * n
    let cap := c.cv f.toNat
    let slot := fun l => (c.v a.toNat .none l).toNat
    let ls := lanesOf c.live
    let keys := (List.range (4 * n)).map fun i => c.vk (b.toNat + i)
    c.ready { wf := ordering != 3 && multiple k b, k2 := false, srcs := [.v a.toNat 1 false .none, .v b.toNat k false .none, .c f.toNat],
              dsts := [.v b.toNat (4 * n)] } = true →
    (∀ l, c.Lane l → flueCheck cap (permR ||| permW) n (slot l) = none) → ∃ t, exec (row.1 f ord ordering op a b) s = .next t ∧
      (∀ i < 4 * n, ∀ l, c.Lane l → c.EmptyV t (b.toNat + i) l) ∧
      c.Completes { s with flueOps := t.flueOps, nextId := t.nextId } t { v := keys } c.past ∧
      ∀ i, i < ls.length → look t.flueOps (s.nextId + 1 + i) = some (c.flueOp s.nextId (ls.getD i 0)
        (.cap n op.toNat ((List.range k).map fun j => c.v (b.toNat + j) .none (ls.getD i 0))) cap (slot (ls.getD i 0)) Cap.null 0 keys ord
        (ordering == 1) (ordering == 2))) ∧
  ∀ (s : State) (c : Ctx) (f : CReg) (b : Reg), s.ctx = some c → c.ready { k2 := false, srcs := [.c f.toNat], dsts := [.s b.toNat 1] } = true →
    check14 (c.cv f.toNat) 3 permR 0 0 = none → ∃ t, exec (.flueRev f b) s = .next t ∧ c.Completes s t { s := [c.sk b.toNat] } c.past ∧
      c.HoldsS t b.toNat (BitVec.ofNat 32 (s.clk.toNat / 128))

/-- R281, R283 to R288, R290, R292, R294, R296: what an operation does at the stop that its grate passes. Causes: 4 for a slot that is not its
partition's, 56 for a boarding of one that is not vacant, 57 for another operation on one that is not live, 20 for a poisoned one; the operation stands
with the cause and the slot until its trap. A boarding fills its slot, an alighting sends the slot's data to memory and is done when that store is, and
a capture updates its slots word by word and answers the old words. A peek answers the slot's words, unless its context is off the core, and a wait's
lane latches when word 0 meets its condition. Of what it says, the model's choice, not the spec's: log 30, 54. -/
def Obligations.FlueStopsApplyOperations : Prop :=
  (∀ (s : State) (o : FlueOp),
    ((∃ n ∈ o.slots, s.ownsSlot o.colour n = false) → ∃ n ∈ o.slots, s.ownsSlot o.colour n = false ∧ s.flueBad o = some (4, n)) ∧
    ((∀ n ∈ o.slots, s.ownsSlot o.colour n = true) →
      (∀ d, o.kind = .board d → s.flueBad o = if (s.slot o.slot).state = 0 then none else some (56, o.slot)) ∧
      (∀ x, o.kind = .alight x → s.flueBad o = if (s.slot o.slot).state = 1 then none else some (57, o.slot)) ∧
      ((o.kind = .peek ∨ (∃ ne x, o.kind = .wait ne x) ∨ ∃ n op data, o.kind = .cap n op data) →
        ((∃ n ∈ o.slots, (s.slot n).state ≠ 1) → ∃ n ∈ o.slots, (s.slot n).state ≠ 1 ∧ s.flueBad o = some (57, n)) ∧
        ((∀ n ∈ o.slots, (s.slot n).state = 1) →
          ((∃ n ∈ o.slots, (s.slot n).poison = true) → ∃ n ∈ o.slots, (s.slot n).poison = true ∧ s.flueBad o = some (20, n)) ∧
          ((∀ n ∈ o.slots, (s.slot n).poison = false) → s.flueBad o = none))))) ∧
  (∀ x y : Word, (capWord 0 x y).toNat = (x.toNat + y.toNat) % 2 ^ 32 ∧ (capWord 1 x y).toInt = min x.toInt y.toInt ∧
    (capWord 2 x y).toInt = max x.toInt y.toInt ∧ (∀ i < 32, (capWord 3 x y).getLsbD i = (x.getLsbD i && y.getLsbD i) ∧
      (capWord 4 x y).getLsbD i = (x.getLsbD i || y.getLsbD i) ∧ (capWord 5 x y).getLsbD i = (x.getLsbD i != y.getLsbD i)) ∧ capWord 6 x y = y) ∧
  (∀ (s : State) (stop id : Nat) (o : FlueOp), stop < 128 → stop ∉ s.fluePassed → s.flueGrant stop (s.grateAt stop) = some (id, o) →
    look s.flueOps id = some o →
    (∀ x ∈ s.flueOps, stopOf x.2.core = stop → x.2.slot / 4 = s.grateAt stop → x.2.isWrite = true ∨ s.flueReady x.1 x.2 = false) →
    (∀ cause n, s.flueBad o = some (cause, n) → ∃ t, exec (.fluePass stop) s = .next t ∧
      look t.flueOps id = some { o with fault := some (cause, n) } ∧ t.flue = s.flue ∧ t.gangs = s.gangs ∧ t.reqs = s.reqs) ∧
    (s.flueBad o = none →
      (∀ d, o.kind = .board (some d) → ∃ t, exec (.fluePass stop) s = .next t ∧ look t.flueOps id = none ∧
        t.slot o.slot = { state := 1, data := d, home := BitVec.ofNat 48 o.addr, colour := o.cap.colour, gen := o.cap.gen, poison := false } ∧
        ∀ n, n ≠ o.slot → t.slot n = s.slot n) ∧
      (o.kind = .alight false → ∃ t r, exec (.fluePass stop) s = .next t ∧ look t.flueOps id = some { o with kind := .alight true } ∧
        t.slot o.slot = { s.slot o.slot with state := 2 } ∧ (∀ n, n ≠ o.slot → t.slot n = s.slot n) ∧ (s.nextId, r) ∈ t.reqs ∧
        r.acc = .alight id ∧ r.addr = o.addr ∧ r.size = 16 ∧ r.cap = o.cap ∧ r.stage = .sent) ∧
      ∀ n op data, o.kind = .cap n op data → op < 8 → data.length = (if op = 7 then 8 * n else 4 * n) → o.dests.length = 4 * n → o.dests.Nodup →
        o.lane < 32 → (∀ d ∈ o.dests, ∃ k, d = .v k) → ∀ g, s.gang o.gang = some g → ∃ t g', exec (.fluePass stop) s = .next t ∧
          look t.flueOps id = none ∧ (∀ m, m < o.slot ∨ o.slot + n ≤ m → t.slot m = s.slot m) ∧
          (let old := fun (i j : Nat) => (s.slot (o.slot + i)).data.extractLsb' (32 * j) 32
          let same := ∀ i < n, ∀ j < 4, old i j = data.getD (4 * i + j) 0
          (∀ i < n, ∀ j < 4, (op < 7 → (t.slot (o.slot + i)).data.extractLsb' (32 * j) 32 = capWord op (old i j) (data.getD (4 * i + j) 0)) ∧
            (op = 7 → same → (t.slot (o.slot + i)).data.extractLsb' (32 * j) 32 = data.getD (4 * n + 4 * i + j) 0) ∧
            (op = 7 → ¬same → (t.slot (o.slot + i)).data = (s.slot (o.slot + i)).data)) ∧
          (∀ i < n, (t.slot (o.slot + i)).state = 1) ∧
          t.gang o.gang = some g' ∧ ∀ i < n, ∀ j < 4, ∀ key, o.dests[4 * i + j]? = some (.v key) →
            g'.vAt key o.lane = old i j ∧ g'.vFull key o.lane = true))) ∧
  (∀ (s : State) (stop id : Nat) (o : FlueOp), stop < 128 → stop ∉ s.fluePassed → look s.flueOps id = some o → stopOf o.core = stop →
    o.slot / 4 = s.grateAt stop → s.flueReady id o = true →
    (∀ x ∈ s.flueOps, x ≠ (id, o) → stopOf x.2.core ≠ stop ∨ x.2.slot / 4 ≠ s.grateAt stop) → (s.flueOps.filter (·.1 == id)).length = 1 →
    let passed := { s with fluePassed := stop :: s.fluePassed }
    let off := (s.core o.core).occ ≠ some o.part
    let acquired := fun (t : State) => (o.acq = true → (t.core o.core).l1 = []) ∧ (o.acq = false → t.cores = s.cores)
    (o.kind = .peek → off → exec (.fluePass stop) s = .next passed) ∧
    (o.kind = .peek ∨ (∃ ne x, o.kind = .wait ne x) → (o.kind = .peek → ¬off) → ∀ cause n, s.flueBad o = some (cause, n) →
      ∃ t, exec (.fluePass stop) s = .next t ∧ t = { passed with flueOps := t.flueOps } ∧
        look t.flueOps id = some { o with fault := some (cause, n) }) ∧
    (o.kind = .peek → ¬off → s.flueBad o = none → o.dests.length = 4 → o.dests.Nodup → o.lane < 32 → (∀ d ∈ o.dests, ∃ k, d = .v k) →
      ∀ g, s.gang o.gang = some g → ∃ t g', exec (.fluePass stop) s = .next t ∧
        t = { passed with flueOps := t.flueOps, gangs := t.gangs, cores := t.cores } ∧ acquired t ∧ look t.flueOps id = none ∧
        t.gang o.gang = some g' ∧ ∀ j < 4, ∀ key, o.dests[j]? = some (.v key) →
          g'.vAt key o.lane = (s.slot o.slot).data.extractLsb' (32 * j) 32 ∧ g'.vFull key o.lane = true) ∧
    (∀ ne x, o.kind = .wait ne x → o.dests = [] → s.flueBad o = none →
      let meets := if ne then (s.slot o.slot).data.extractLsb' 0 32 ≠ x else (s.slot o.slot).data.extractLsb' 0 32 = x
      (¬meets → exec (.fluePass stop) s = .next passed) ∧
      (meets → ∃ t, exec (.fluePass stop) s = .next t ∧ acquired t ∧ look t.flueOps id = none ∧ t.flue = s.flue ∧
        (∀ k, k ≠ id → look t.flueOps k = look s.flueOps k) ∧ t.reqs = s.reqs))) ∧
  ∀ (s : State) (id : Nat) (o : FlueOp), look s.flueOps id = some o → o.away = true → o.fault = none →
    (∀ x ∈ s.reqs, x.2.acc ≠ .alight id) → ∃ t, exec (.flueAlightCompletion id) s = .next t ∧ look t.flueOps id = none ∧
      t.slot o.slot = { s.slot o.slot with state := 0, data := 0, poison := false } ∧ (∀ n, n ≠ o.slot → t.slot n = s.slot n) ∧ t.mem = s.mem

/-! ### Queues and engines (15) -/

/-- R299: QW writes S[a] + 2^32 S[a + 1] to word w of its queue's staging area and sets bit w of the written mask, whatever the word held
before; the other words stay, nothing moves, and it raises no cause but R92's. b is reserved. -/
def Obligations.QueueWordWrites : Prop :=
  (∀ (w q : BitVec 2) (a b : Reg), decodeTableWord 32 (w ++ q ++ 0#8 ++ a ++ b ++ 0x71#7 ++ 1#1 : Word).toNat =
    if b = 0 then some (.qw w q a) else none) ∧
  ∀ (s : State) (c : Ctx) (w q : BitVec 2) (a : Reg), s.ctx = some c →
    c.ready { wf := q != 3 && even a, srcs := [.s a.toNat 2 false] } = true → ∃ t x, exec (.qw w q a) s = .next t ∧
      (c.withQ x).Completes s t {} c.past ∧ (∀ k, k ≠ q.toNat → lookD QReg.empty x k = c.g.queue k) ∧
      let old := c.g.queue q.toNat
      let new := lookD QReg.empty x q.toNat
      new.results = old.results ∧ new.written = old.written ||| 1#4 <<< w.toNat ∧
        (lookD 0 new.words w.toNat).toNat = (c.sv a.toNat).toNat + 2 ^ 32 * (c.sv (a.toNat + 1)).toNat ∧
        ∀ i, i ≠ w.toNat → lookD 0 new.words i = lookD 0 old.words i

/-- R300 to R302, R304 to R306: QGO refuses a queue with no free entry, waits for the split's accesses, records an incomplete command with status 2, a
rejected one with status 3 and its code, and accepts the rest; QGO_C does so with a command block in memory; QRD empties its registers and
sends the oldest record to them, or parks until one comes (R57). A go whose shape record or indices wait for a host page leaves the staging as it was.
Of what it says, the model's choice, not the spec's: log 29, 52, 55, 76, 95. -/
def Obligations.QueueInstructions : Prop :=
  let namesLines := fun (e : Engine) => (e.kind == 0x10 || e.kind == 0x11) && e.dstSpace != 0
  let others := fun (c : Ctx) (n : Nat) (x : Store QReg) => ∀ k, k ≠ n → lookD QReg.empty x k = c.g.queue k
  let posted := fun (c : Ctx) (t : State) (n : Nat) (w : BitVec 4) (r : BitVec 64) => ∃ g, t.gang c.gid = some g ∧
    (g.queue n).results = (c.g.queue n).results ++ [r] ∧ (g.queue n).written = w ∧ (g.queue n).words = (c.g.queue n).words
  let rejected := fun (c : Ctx) (u t : State) (e : Engine) (n code : Nat) (w : BitVec 4) =>
    posted c t n w (recordOf (e.bits 0 31 0) code 3 e.kind) ∧ t.mem = u.mem ∧ t.engines = u.engines ∧
    ∀ r b, e.barrier u = some r → u.barGet r = some b → ∃ b', t.barGet r = some b' ∧ b'.phase = !b.phase ∧ b'.error = true ∧
      (b.error = false → b'.code = BitVec.ofNat 16 code)
  (∀ (s : State) (c : Ctx) (q : BitVec 2), s.ctx = some c →
    c.ready { wf := q != 3, srcs := (List.range 16).map fun r => .c r fun c => c.goNames q.toNat r } = true →
    let n := q.toNat
    let old := c.g.queue n
    let run := (s.running c.gid n).length
    let mayOpen := c.sp.mode != .u
    let cleared := fun (v : State) => v.setQueue c.gid n fun x => { x with written := 0 }
    let e := c.command n ((List.range 4).map fun i => lookD 0 old.words i) c.cv
    (16 ≤ run + old.results.length →
      (run ≠ 0 → exec (.qgo q) s = .next s) ∧
      (run = 0 → c.MayTrap s → ∃ t, exec (.qgo q) s = .next t ∧ c.Enters s t 54 0 0 c.pc c.trapMode)) ∧
    (run + old.results.length < 16 → s.openFor c.gid c.active = true → exec (.qgo q) s = .next s) ∧
    (run + old.results.length < 16 → s.openFor c.gid c.active = false →
      (old.written ≠ 0xF → ∃ t x, exec (.qgo q) s = .next t ∧ (c.withQ x).Completes s t {} c.past ∧ others c n x ∧
        posted c t n 0 (let w := if old.written.getLsbD 0 = true then lookD 0 old.words 0 else 0
          recordOf (w.toNat % 2 ^ 32) 0 2 (w.toNat / 2 ^ 58))) ∧
      (old.written = 0xF → ∀ v, c.ReadsShape n false mayOpen e → s.readShape c.gid c.core c.pid e.aux e.o1 = (v, none) →
        exec (.qgo q) s = .next (v.updSplit c.gid c.e fun sp => { sp with only := c.active })) ∧
      (old.written = 0xF → ∀ v e' r, c.Shaped s n false mayOpen e v e' r →
        let u' := cleared v
        let code := u'.submitCode e' n false mayOpen c.blk r
        (code = none → (namesLines e' = true → ∀ v', v.indices e' e'.count = (v', none) →
          exec (.qgo q) s = .next (v'.updSplit c.gid c.e fun sp => { sp with only := c.active })) ∧
          ∀ v' xs, v.NamesLines v' e' xs → ∃ t x, exec (.qgo q) s = .next t ∧ (c.withQ x).Accepts (cleared v') t e' xs ∧ others c n x ∧
            (lookD QReg.empty x n).written = 0 ∧ (lookD QReg.empty x n).results = old.results) ∧
        ∀ k, code = some k → ∃ t, exec (.qgo q) s = .next t ∧ rejected c u' t e' n k 0))) ∧
  (∀ (s : State) (c : Ctx) (q : BitVec 2) (m : CReg), s.ctx = some c → c.ready { wf := q != 3 } = true →
    let n := q.toNat
    let x := c.cv m.toNat
    let run := (s.running c.gid n).length
    (16 ≤ run + (c.g.queue n).results.length →
      (run ≠ 0 → exec (.qgoC q m) s = .next s) ∧
      (run = 0 → c.MayTrap s → ∃ t, exec (.qgoC q m) s = .next t ∧ c.Enters s t 54 0 0 c.pc c.trapMode)) ∧
    (run + (c.g.queue n).results.length < 16 → s.openFor c.gid c.active = true → exec (.qgoC q m) s = .next s) ∧
    (run + (c.g.queue n).results.length < 16 → s.openFor c.gid c.active = false →
      (∀ k, (if x.tag = false then some 0x0401 else if x.type ≠ (if n = 2 then 2 else 1) then some 0x0406
          else if x.allows (permR ||| permLC) = false ∨ x.allows (permW ||| permX) = true then some 0x0403
          else if x.len < 96 then some 0x0402 else if x.flat % 32 ≠ 0 then some 0x0410
          else match s.reachFor c.gid c.core c.pid x.colour x.gen false x.flat 96 with
            | .fail cause _ => some (0x0400 + cause)
            | .ok => if s.poisoned x.flat 96 then some 0x0414 else none
            | .wait _ => none) = some k →
        ∃ t r, exec (.qgoC q m) s = .next t ∧ posted c t n (c.g.queue n).written r ∧ r.extractLsb' 16 16 = BitVec.ofNat 16 k ∧
          r.extractLsb' 8 8 = 3 ∧ t.mem = s.mem ∧ t.engines = s.engines) ∧
      (x.tag = true → x.type = (if n = 2 then 2 else 1) → x.allows (permR ||| permLC) = true → x.allows (permW ||| permX) = false →
        96 ≤ x.len → x.flat % 32 = 0 → s.reachFor c.gid c.core c.pid x.colour x.gen false x.flat 96 = .ok →
        s.poisoned x.flat 96 = false →
        let bs := s.bytesAt (s.pasid c.pid) x.flat 96
        let u := ((s.pageDone c.gid c.pid x.flat 96).touchRun x.flat 96 c.pid false).carry c.pid x.flat 96
        let e := c.command n ((List.range 4).map fun i => BitVec.ofNat 64 (leNat ((bs.drop (8 * i)).take 8)))
          fun i => ⟨BitVec.ofNat 128 (leNat ((bs.drop (32 + 16 * i)).take 16)), s.tagAt (x.flat + 32 + 16 * i)⟩
        ∀ u' e' r, c.Shaped u n true (c.sp.mode != .u || x.allows permSYS) e u' e' r →
          let code := u'.submitCode e' n true (c.sp.mode != .u || x.allows permSYS) c.blk r
          (code = none → ∀ u'' xs, u'.NamesLines u'' e' xs → ∃ t, exec (.qgoC q m) s = .next t ∧ c.Accepts u'' t e' xs) ∧
          ∀ k, code = some k → ∃ t, exec (.qgoC q m) s = .next t ∧ rejected c u' t e' n k (c.g.queue n).written))) ∧
  (∀ (s : State) (c : Ctx) (q : BitVec 2) (toS : Bool) (b : Reg), s.ctx = some c →
    c.ready { wf := q != 3 && even b, dsts := if toS then [.s b.toNat 2] else [.v b.toNat 2] } = true → c.live = c.active →
    let keys := if toS then [c.sk b.toNat, c.sk (b.toNat + 1)] else [c.vk b.toNat, c.vk (b.toNat + 1)]
    let dests := keys.map fun k => if toS then Dest.s k else .v k
    let w : Regs := if toS then { s := keys } else { v := keys }
    let emptied := fun (t : State) => if toS then c.EmptyS t b.toNat ∧ c.EmptyS t (b.toNat + 1)
      else ∀ l, c.Lane l → c.EmptyV t b.toNat l ∧ c.EmptyV t (b.toNat + 1) l
    let behind := ∃ x ∈ s.reqs, x.2.recordOf c.gid q.toNat (BitVec.allOnes 32) = true
    ((c.g.queue q.toNat).results = [] ∨ behind → ∃ t, exec (.qrd q toS b) s = .next t ∧ emptied t ∧
      c.Completes (s.sent [{ c.req s.nextId 32 (.record q.toNat) 0 0 Cap.null dests with acq := false, stage := .waiting }]) t w
        { c.sp with run := .parked (.queue q.toNat c.next) }) ∧
    ∀ r rest, (c.g.queue q.toNat).results = r :: rest → ¬behind → ∃ t x, exec (.qrd q toS b) s = .next t ∧ emptied t ∧ others c q.toNat x ∧
      lookD QReg.empty x q.toNat = { c.g.queue q.toNat with results := rest } ∧
      (c.withQ x).Completes (s.sent ((if toS then [32] else lanesOf c.active).map fun l =>
        { c.req s.nextId l .onCore 0 8 Cap.null dests with
          acq := false, stage := .replied [r.extractLsb' 0 32, r.extractLsb' 32 32] false })) t w c.past)

/-- R303: QSTAT writes one s register full and nothing else, the queue's records among what stays: the number of result records, the commands
accepted and not complete (for q3 the messages of the core's outbound queue), and the written mask, each in its field; the other bits,
and for q3 the other fields, are 0. -/
def Obligations.QueueCountsAreReported : Prop :=
  (∀ (w q : BitVec 2) (a b : Reg), decodeTableWord 32 (w ++ q ++ 0x04#8 ++ a ++ b ++ 0x71#7 ++ 1#1 : Word).toNat =
    if w = 0 ∧ a = 0 then some (.qstat q b) else none) ∧
  ∀ (s : State) (c : Ctx) (q : BitVec 2) (b : Reg), s.ctx = some c → c.ready { dsts := [.s b.toNat 1] } = true →
    let x := c.g.queue q.toNat
    let records := if q = 3 then 0 else x.results.length
    let going := if q = 3 then (s.core c.core).outbound.length else (s.running c.gid q.toNat).length
    records ≤ 16 → going ≤ 16 →
    ∃ (t : State) (v : Word), exec (.qstat q b) s = .next t ∧ c.Completes s t { s := [c.sk b.toNat] } c.past ∧ c.HoldsS t b.toNat v ∧
      (v.extractLsb' 16 5).toNat = records ∧ (v.extractLsb' 8 5).toNat = going ∧ v.extractLsb' 0 4 = (if q = 3 then 0 else x.written) ∧
      v.extractLsb' 21 11 = 0 ∧ v.extractLsb' 13 3 = 0 ∧ v.extractLsb' 4 4 = 0

/-- R307 to R311, R313: an accepted command whose core its context occupies starts once no earlier conflicting command of its queue is left; a
SEND or BCAST starts with the RECV it is matched with, both failing with 0x0501 where LENGTH or CHUNK differs; a collective on a port
runs while the port is up, and fails with 0x0502 where it is down. -/
def Says.EngineCommandsStart : Prop :=
  let only := fun (s t : State) (ids : List Nat) => t = { s with engines := t.engines } ∧
    ∀ k, k ∉ ids → look t.engines k = look s.engines k
  (∀ row ∈ [(Instr.copy1d, 1), (.copy2d, 2), (.copytile, 3), (.fill, 4), (.seal, 5), (.open_, 6), (.gather, 0x10), (.scatter, 0x11),
      (.recv, 0x21)], ∀ (s : State) (id : Nat) (e : Engine), look s.engines id = some e → e.kind = row.2 → e.stage = .accepted →
    s.engineOn e = true → (row.2 = 0x21 → e.route = 0) →
    (s.engineBehind id e = true → exec (row.1 id) s = .next s) ∧
    (s.engineBehind id e = false → ∃ t, exec (row.1 id) s = .next t ∧ only s t [id] ∧
      look t.engines id = some { e with stage := .running })) ∧
  (∀ row ∈ [(Instr.send, 0x20), (.bcast, 0x22)], ∀ (s : State) (id k die : Nat) (e x : Engine), look s.engines id = some e → e.kind = row.2 →
    e.route = 0 → s.engineOn e = true → e.mates = [] → e.stage = .accepted → s.engineBehind id e = false → e.diesLeft ≠ [] →
    ((∀ d ∈ e.diesLeft, s.recvFor e d = none) → exec (row.1 id) s = .next s) ∧
    ((e.diesLeft.filter fun d => (s.recvFor e d).isSome).head? = some die → s.recvFor e die = some (k, x) → k ≠ id →
      ∃ t, exec (row.1 id) s = .next t ∧ only s t [id, k] ∧
        ((x.len ≠ e.len ∨ x.chunk ≠ e.chunk) → look t.engines id = some { e with stage := .failing 0x0501 } ∧
          look t.engines k = some { x with stage := .failing 0x0501 }) ∧
        (x.len = e.len → x.chunk = e.chunk → look t.engines k = some { x with row := 1, mates := [id] } ∧
          look t.engines id = some { e with
            stage := .running, row := e.row + (if row.2 = 0x22 then 2 ^ die else 1), mates := [k] }))) ∧
  ∀ row ∈ [(Instr.send, 0x20), (.recv, 0x21)], ∀ (s : State) (id : Nat) (e : Engine), look s.engines id = some e → e.kind = row.2 →
    e.route = 1 → s.engineOn e = true → e.mates = [] → e.stage = .accepted → s.engineBehind id e = false →
    ((∃ p, look s.ports e.peer = some p ∧ p.up = true) → ∃ t, exec (row.1 id) s = .next t ∧ only s t [id] ∧
      look t.engines id = some { e with stage := .running, row := 1 }) ∧
    ((∀ p, look s.ports e.peer = some p → p.up = false) → ∃ t, exec (row.1 id) s = .next t ∧ only s t [id] ∧
      look t.engines id = some { e with stage := .failing 0x0502 })

/-- R305, R307, R309, R314, R316, R317: a running copy or fill delivers one sector, of the bytes that its rule names, up to the next 32-byte
unit of the destination, and counts it at its barrier; a gather or scatter reads its next index; a sector that cannot be read stops the
command with its code; a command that has delivered its last sector leaves a record of status 0, and a failed one its code, in an error
phase of its barrier. -/
def Says.EngineCommandsMoveSectors : Prop :=
  let counts := fun (s t : State) (e : Engine) => ∀ r b, e.bar = some r → s.barGet r = some b →
    t.barGet r = some { b with delSec := (b.delSec + 1) % 2 ^ 32 }.settle
  (∀ (s : State) (id : Nat) (e : Engine) (x : Span) (off : Nat), look s.engines id = some e → e.stage = .running →
    s.engineOn e = true → e.lines = [] → e.mates = [] → e.srcSpace = 0 → e.dstSpace = 0 → e.run e.row 0 = some x → e.pos < x.len →
    (∀ h, e.head = some h → s.outranked e.core h = false) →
    let a := e.dst.at ((x.dst + e.pos : Nat) : Int)
    let n := min (x.len - e.pos) (32 - a % 32)
    let e' := if x.len ≤ e.pos + n then { e with row := e.row + 1, pos := 0 } else { e with pos := e.pos + n }
    (e.kind = 1 ∨ e.kind = 2 → x.src e.pos n = [(some off, n)] →
      (s.reach e.core e.part e.src.colour e.src.gen false (e.src.at off) n = .ok → s.poisoned (e.src.at off) n = false →
        s.reach e.core e.part e.dst.colour e.dst.gen true a n = .ok →
        ∃ t, exec (.engineSectorDelivery id) s = .next t ∧ s.Wrote t e.part a (s.bytesAt (s.pasid e.part) (e.src.at off) n) ∧
          look t.engines id = some e' ∧ counts s t e ∧
          (e.keepTags = false → isHost a = false → ∀ g ∈ unitsOf 16 a n, lookD false t.tags g = false)) ∧
      ∀ cause addr, s.reach e.core e.part e.src.colour e.src.gen false (e.src.at off) n = .fail cause addr →
        ∃ t, exec (.engineSectorDelivery id) s = .next t ∧ t = { s with engines := t.engines, raised := t.raised, fresh := t.fresh } ∧
          look t.engines id = some { e with stage := .failing (BitVec.ofNat 16 (0x0400 + cause)) }) ∧
    (e.kind = 4 → s.reach e.core e.part e.dst.colour e.dst.gen true a n = .ok →
      ∃ t, exec (.engineSectorDelivery id) s = .next t ∧
        s.Wrote t e.part a ((List.range n).map fun i => ((e.words.getD 2 0).extractLsb' (8 * ((x.dst + e.pos + i) % 8)) 8 : Byte)) ∧
        look t.engines id = some e' ∧ counts s t e)) ∧
  (∀ (s : State) (id : Nat) (e : Engine), look s.engines id = some e → e.stage = .running → s.engineOn e = true →
    (e.kind = 0x10 ∨ e.kind = 0x11) → e.row < e.count → e.buf = [] → e.mates = [] → (∀ h, e.head = some h → s.outranked e.core h = false) →
    let a := e.aux.at ((e.len + 4 * e.row : Nat) : Int)
    let x := leNat (s.bytesAt (s.pasid e.part) a 4)
    let room := if e.kind = 0x10 then s.spaceLen e e.srcSpace e.src e.o1 else s.spaceLen e e.dstSpace e.dst e.o1
    s.reach e.core e.part e.aux.colour e.aux.gen false a 4 = .ok → s.poisoned a 4 = false →
    ∃ t, exec (.engineSectorDelivery id) s = .next t ∧ t = { s with engines := t.engines, slices := t.slices, tally := t.tally, raised := t.raised, fresh := t.fresh } ∧
      look t.engines id = some (if x = 0xFFFFFFFF then { e with row := e.row + 1 }
        else if room < e.o1 + x * e.elemSize + e.elemSize then { e with stage := .failing 0x0402 }
        else { e with buf := s.bytesAt (s.pasid e.part) a 4 })) ∧
  (∀ (s : State) (id : Nat) (e : Engine) (g : Gang), look s.engines id = some e → e.stage = .running → s.engineOn e = true →
    s.engineDone e = true → e.lines = [] → s.gang e.gang = some g → ∃ t g', exec (.engineCommandCompletion id) s = .next t ∧
      t = { s with engines := t.engines, gangs := t.gangs } ∧ look t.engines id = none ∧
      (∀ k, k ≠ id → look t.engines k = look s.engines k) ∧ t.gang e.gang = some g' ∧
      (g'.queue e.queue).results = (g.queue e.queue).results ++
        (if e.noRecord = true then [] else [recordOf (e.bits 0 31 0) 0 0 e.kind])) ∧
  ∀ (s : State) (id : Nat) (e : Engine) (g : Gang) (code : BitVec 16), look s.engines id = some e → e.stage = .failing code →
    s.gang e.gang = some g → ∃ t g', exec (.engineCommandFailure id) s = .next t ∧ look t.engines id = none ∧ t.mem = s.mem ∧
      t.gang e.gang = some g' ∧ (g'.queue e.queue).results = (g.queue e.queue).results ++ [recordOf (e.bits 0 31 0) code.toNat 1 e.kind] ∧
      ∀ r b, e.bar = some r → s.barGet r = some b → ∃ b', t.barGet r = some b' ∧ b'.phase = !b.phase ∧ b'.error = true ∧
        (b.error = false → b'.code = code)

/-! ### Launches, messages and the hypervisor's instructions (15, 16, 17, 19, 20) -/

/-- R321, R328, R332, R401: LAUNCH, GRAPH_TRIG and ESIGN check their capability and put one request in flight, and hold the split until it is
served. A launch record enters the queue of its level at the home slice, and its split goes on; while the level is full the record waits as it was read,
and the split with it. Of what it says, the model's choice, not the spec's: log 25, 52. -/
def Obligations.LaunchesTriggersAndSignatures : Prop :=
  (∀ (s : State) (c : Ctx) (m : CReg) (a b : Reg), s.ctx = some c →
    let x := c.cv m.toNat
    let held := fun (acc : Access) (off : Int) (size : Nat) => ({ c.req s.nextId 32 acc (x.at off) size x [] with acq := false } : Req)
    let late := s.acquiring c.gid c.active
    let out := s.openFor c.gid c.active
    ∀ row ∈ ([(Instr.launch m a, { srcs := [.s a.toNat 1 false, .c m.toNat] }, late || out, Access.launch (x.allows permLC), a, permR, 64, 64),
        (.graphTrig m a b, { k2 := false, srcs := [.s a.toNat 1 false, .s b.toNat 1 false, .c m.toNat] }, late, .graph (c.sv a.toNat).toNat, b, permR,
          16, 16),
        (.esign m a, { priv := .s, srcs := [.s a.toNat 1 false, .c m.toNat] }, late, .sign, a, permW ||| permSYS, 4864, 128)] :
          List (Instr × Needs × Bool × Access × Reg × BitVec 8 × Nat × Nat)),
      let (i, needs, waits, acc, r, perm, size, align) := row
      let off : Int := (c.sv r.toNat).toNat
      c.ready needs = true →
      (waits = true → exec i s = .next s) ∧
      (waits = false → check15 x perm off size align = none → ∃ t, exec i s = .next t ∧
        c.Completes (s.sent [held acc off size]) t {} { c.past with run := .busy }) ∧
      (waits = false → c.MayTrap s → ∀ cause addr, check15 x perm off size align = some (cause, addr) → ∃ t, exec i s = .next t ∧
        c.Enters s t cause addr 0 c.pc c.trapMode)) ∧
  ∀ (s u : State) (id : Nat) (keep tags : Bool) (r : Req), s.Reaches id r → r.acc = .launch tags →
    let rec_ := s.recordAt (s.pasid r.part) r.addr tags
    (s.enqueue r.part rec_ = none → ∃ t, exec (.homeSliceAccess id keep .none) s = .next t ∧ t.parts = s.parts ∧ t.gangs = s.gangs ∧
      t.mem = s.mem ∧ look t.reqs id = some { r with acc := .enter rec_, stage := .waiting }) ∧
    (s.enqueue r.part rec_ = some u → ∃ t, exec (.homeSliceAccess id keep .none) s = .next t ∧
      t = { s with parts := u.parts, reqs := t.reqs, gangs := t.gangs, tally := t.tally, slices := t.slices, cores := t.cores,
                   raised := t.raised } ∧ look t.reqs id = none ∧
      (∀ p, s.part r.part = some p → (t.part r.part).map (fun q => q.level rec_.priority) = some (p.level rec_.priority ++ [rec_])) ∧
      ∀ g, s.gang r.gang = some g → (t.gang r.gang).map (·.splits) = some (g.splits.map fun x =>
        if x.2.run = .busy ∧ x.2.mask &&& r.mask ≠ 0 then (x.1, { x.2 with run := .ready }) else x))

/-- R339, R340: AMSEND checks its destination in the rule's order (cause 59, with the detail of the check that fails), is a release, parks
while the outbound queue has no entry it may use, and else queues the message with the sender's word and the sixteen words. Of what it says, the
model's choice, not the spec's: log 52. -/
def Says.MessagesAreQueued : Prop :=
  ∀ (s : State) (c : Ctx) (a b : Reg), s.ctx = some c →
    c.ready { wf := b == 0 || b == 16 || b == 32, srcs := [.s a.toNat 1 false, .s b.toNat 16 false] } = true →
    let d := c.sv a.toNat
    let route := (d.extractLsb' 30 2).toNat
    let port := (d.extractLsb' 26 4).toNat
    let k := s.core c.core
    let bad : Option Nat :=
      if d.extractLsb' 8 9 ≠ 0 ∨ 2 ≤ route ∨ (route = 0 ∧ port ≠ 0) ∨ (route = 1 ∧ 12 ≤ port) then some 1
      else if route = 0 ∧ c.part.coreSet.getLsbD (d.extractLsb' 17 9).toNat = false then some 2
      else if route = 0 ∧ look c.part.handlers (d.extractLsb' 0 8).toNat = none then some 3
      else if route = 1 ∧ ¬(∃ p, look s.ports port = some p ∧ p.up = true ∧ ∃ x ∈ p.pairs, x.1 = c.pid) then some 4 else none
    let full := 16 ≤ k.outbound.length ∨ (c.blk.handler = false ∧ 12 ≤ (k.outbound.filter fun m => !m.fromHandler).length)
    (∀ detail, bad = some detail → c.MayTrap s → ∃ t, exec (.amsend a b) s = .next t ∧ c.Enters s t 59 0 detail c.pc c.trapMode) ∧
    (bad = none →
      (s.openFor c.gid c.active = true → exec (.amsend a b) s = .next s) ∧
      (s.openFor c.gid c.active = false → full → ∃ t, exec (.amsend a b) s = .next t ∧
        c.Stays s t {} { c.sp with run := .parked .outbound }) ∧
      (s.openFor c.gid c.active = false → ¬full → ∃ t, exec (.amsend a b) s = .next t ∧
        c.Completes (s.setCore c.core { k with outbound := k.outbound ++
          [{ part := c.pid, sender := BitVec.ofNat 32 (c.core * 2 ^ 17), dest := d, payload := (List.range 16).map fun i => c.sv (b.toNat + i),
             fromHandler := c.blk.handler }] }) t {} c.past))

/-- R320, R344, R372, R381, R388: HCMD queues its list and empties its destination; SWEEP asks for a pass; PHALT removes another partition from the turns
at once and holds its split until its context has left the cores it occupied; PRESUME puts it back, with the messages that its overflow area held back, or
raises the cause of a failed restore; RESYNC asks for the resynchronisation of a channel in desync. Of what it says, the model's choice, not the spec's:
log 25, 52, 69, 78. -/
def Obligations.HypervisorInstructions : Prop :=
  (∀ (s : State) (c : Ctx) (m : CReg) (a b : Reg), s.ctx = some c →
    let x := c.cv m.toNat
    let off : Int := (c.sv a.toNat).toNat
    c.ready { priv := .h, srcs := [.s a.toNat 1 false, .c m.toNat], dsts := [.s b.toNat 1] } = true →
    (s.openFor c.gid c.active = true → exec (.hcmd m a b) s = .next s) ∧
    (s.openFor c.gid c.active = false →
      (∀ cause addr, check15 x (permR ||| permSYS) off 16 32 = some (cause, addr) → c.MayTrap s → ∃ t, exec (.hcmd m a b) s = .next t ∧
        c.Enters s t cause addr 0 c.pc .h) ∧
      (check15 x (permR ||| permSYS) off 16 32 = none →
        (16 ≤ s.cmdQueue.length → exec (.hcmd m a b) s = .next s) ∧
        (s.cmdQueue.length < 16 → ∃ t, exec (.hcmd m a b) s = .next t ∧ c.EmptyS t b.toNat ∧
          c.Completes { s with cmdQueue := s.cmdQueue ++
            [{ addr := x.at off, cap := some (x, (c.sv a.toNat).toNat), dest := some (c.gid, c.sk b.toNat) }] } t { s := [c.sk b.toNat] }
            c.past)))) ∧
  (∀ (s : State) (c : Ctx), s.ctx = some c → c.ready { priv := .h } = true → ∃ t, exec .sweep s = .next t ∧
    c.Completes { s with sweepAsked := true } t {} c.past) ∧
  (∀ (s : State) (c : Ctx) (a : Reg), s.ctx = some c → c.ready { priv := .h, srcs := [.s a.toNat 1 false] } = true →
    let p := (c.sv a.toNat).toNat
    let other := fun (x : Part) => p < 64 ∧ p ≠ c.pid ∧ s.part p = some x ∧ x.inUse = true
    ((∀ x, ¬other x) → c.MayTrap s →
      (∃ t, exec (.phalt a) s = .next t ∧ c.Enters s t 32 0 0 c.pc .h) ∧ ∃ t, exec (.presume a) s = .next t ∧ c.Enters s t 32 0 0 c.pc .h) ∧
    ∀ x, other x →
      (let cores := (s.cores.filter fun y => y.2.occ == some p).map (·.1)
      let u := if x.halted then s else s.haltPart p
      u.part p = some { x with halted := true } ∧ (x.halted = false → (s.context p).state = 1 → (u.context p).state = 2) ∧
      (cores = [] → ∃ t, exec (.phalt a) s = .next t ∧ c.Completes u t {} c.past) ∧
      (cores ≠ [] → ∃ t, exec (.phalt a) s = .next t ∧
        c.Completes (u.sent [{ c.req s.nextId 32 (.phalt p cores) 0 0 Cap.null [] with acq := false, stage := .waiting }]) t {}
          { c.past with run := .busy })) ∧
      (∀ cause, x.failed = some cause → cause < 256 → cause ≠ 65 → c.MayTrap s → ∃ t, exec (.presume a) s = .next t ∧
        c.Enters s t cause 0 0 c.pc .h) ∧
      (x.failed = none → x.halted = false → ∃ t, exec (.presume a) s = .next t ∧ c.Completes s t {} c.past) ∧
      (x.failed = none → x.halted = true → ∃ (t u : State), exec (.presume a) s = .next t ∧ c.Completes u.unspillAll t {} c.past ∧
        u = { s with parts := u.parts, contexts := u.contexts } ∧
        u.part p = some { x with halted := false, broken := false } ∧ (∀ q, q ≠ p → u.part q = s.part q) ∧
        (u.context p).state = (if (s.context p).state = 2 then 1 else (s.context p).state) ∧ ∀ q, q ≠ p → u.context q = s.context q)) ∧
  ∀ (s : State) (c : Ctx) (a : Reg), s.ctx = some c → c.ready { priv := .h, srcs := [.s a.toNat 1 false] } = true →
    let n := (c.sv a.toNat).toNat
    let x := lookD Channel.closed s.channels n
    ((16 ≤ n ∨ x.state ≠ 2) → c.MayTrap s → ∃ t, exec (.resync a) s = .next t ∧ c.Enters s t 32 0 0 c.pc .h) ∧
    (n < 16 → x.state = 2 → ∃ t, exec (.resync a) s = .next t ∧ c.Completes { s with channels := t.channels } t {} c.past ∧
      (∀ k, k ≠ n → lookD Channel.closed t.channels k = lookD Channel.closed s.channels k) ∧
      lookD Channel.closed t.channels n = if x.resync ||| 2 = 3 then { x with host := x.device, state := 1, resync := 0 }
        else { x with resync := x.resync ||| 2 })

/-! ### Splits, gangs and blocks (02, 16, 18) -/

/-- R36, R41, R42, R59, R160, R252, R288, R302: the ends of JOIN's hold, of a yield, and of a wait whose condition is met; a split that the progress bound has
reached issues next. Of what it says, the model's choice, not the spec's: log 1 (the issue stands on the agenda), 7, 55. -/
def Says.HoldsAndWaitsEnd : Prop :=
  ∀ (s : State) (gid e : Nat) (g : Gang) (sp : Split), s.gang gid = some g → look g.splits e = some sp →
    let becomes := fun (i : Instr) (x : Split) => exec i s = .next (s.setGang gid { g with splits := set g.splits e x })
    let stays := fun (i : Instr) => exec i s = .next s
    (s.gangMoves gid g = true → sp.run = .held 0 → becomes (.joinHoldEnd gid e) { sp with pc := sp.pc + 4, run := .ready }) ∧
    (s.gangMoves gid g = false ∨ sp.run ≠ .held 0 → stays (.joinHoldEnd gid e)) ∧
    (∀ limit owed, sp.run = .yielding limit owed →
      let turn := fun (x : Nat × Nat × Nat) => ∀ h, s.gang x.1 = some h → x.2.2 < h.ticks.getD x.2.1 0 ∨
        ∀ y ∈ h.splits, y.2.mask.getLsbD x.2.1 = true → s.mayIssue x.1 y.1 = false
      let free := limit ≤ s.clk.toNat ∨ ∀ x ∈ owed, turn x
      (free → becomes (.yieldRelease gid e) { sp with run := .ready }) ∧ (¬free → stays (.yieldRelease gid e))) ∧
    (s.mayIssue gid e = true → exec (.progressBoundExpiry gid e) s =
      .next { s with urgent := some (gid, e), agenda := .issue gid e [] :: s.agenda }) ∧
    (s.mayIssue gid e = false → stays (.progressBoundExpiry gid e)) ∧
    (s.gangMoves gid { g with stopped := false } = false → stays (.splitWake gid e)) ∧
    (s.gangMoves gid { g with stopped := false } = true →
      let wakes := fun (met : Prop) => (met → becomes (.splitWake gid e) { sp with run := .ready }) ∧ (¬met → stays (.splitWake gid e))
      (sp.run = .parked .met → wakes True) ∧
      (∀ lines, sp.run = .parked (.pad lines) →
        wakes (∀ x ∈ lines, ∀ b, s.block x.1 = some b → lookD false b.padEmpty x.2 = false)) ∧
      (sp.run = .parked .host → wakes (∀ x ∈ s.reqs, x.2.hostLoad gid sp.mask = false)) ∧
      (sp.run = .parked .outbound → ∀ b, s.block g.block = some b → wakes ((s.core b.core).outbound.length < 16 ∧
        (b.handler = true ∨ ((s.core b.core).outbound.filter fun m => !m.fromHandler).length < 12))) ∧
      (∀ q next, sp.run = .parked (.queue q next) → ((∃ x ∈ s.reqs, x.2.recordOf gid q sp.mask = true) → stays (.splitWake gid e)) ∧
        ((∀ x ∈ s.reqs, x.2.recordOf gid q sp.mask = false) → becomes (.splitWake gid e) { sp with pc := next, run := .ready })) ∧
      (∀ next, sp.run = .parked (.fill next) → ((∃ x ∈ s.reqs, x.2.phaseOf gid sp.mask = true) → stays (.splitWake gid e)) ∧
        ((∀ x ∈ s.reqs, x.2.phaseOf gid sp.mask = false) → becomes (.splitWake gid e) { sp with pc := next, run := .ready })) ∧
      (∀ lvl idx key sync r b, sp.run = .parked (.barrier lvl idx key sync) → s.barRef gid g lvl idx = some r → s.barGet r = some b →
        (waitOver b g (g.compat s) lvl idx sp.mask = false → stays (.splitWake gid e)) ∧
        (waitOver b g (g.compat s) lvl idx sp.mask = true → g.sFull key = true → ∃ t g', exec (.splitWake gid e) s = .next t ∧
          t = { s with gangs := t.gangs, cores := t.cores } ∧ t.gang gid = some g' ∧ g'.sAt key = b.word ∧
          look g'.splits e = some { sp with run := .parked .met, pc := sp.pc + 4 } ∧ (2 ≤ lvl → (t.core (s.coreOf g)).l1 = []))) ∧
      ∀ next, sp.run = .parked (.flue next) → ((∃ x ∈ s.flueOps, x.2.waitOf gid sp.mask = true) → stays (.splitWake gid e)) ∧
        ((∀ x ∈ s.flueOps, x.2.waitOf gid sp.mask = false) → becomes (.splitWake gid e) { sp with pc := next, run := .ready }))

/-- R57, R59, R252, R302, R321, R328, R332, R372: what waits on the core itself. The oldest record of a result queue goes to the registers of the QRD that
waits first; the phase word of a barrier wait that is over is written once its register has filled, as an acquire (R201); a launch record enters its
level, and a trigger its graph's queue, once there is an entry, and PHALT ends once no core holds the context, and each lets its split go on. Of
what it says, the model's choice, not the spec's: log 7, 55. -/
def Says.ResultsThatWaitReturn : Prop :=
  ∀ (s : State) (id : Nat) (r : Req) (g : Gang), look s.reqs id = some r → r.stage = .waiting → s.gang r.gang = some g → g.place = .resident →
    (s.core (s.coreOf g)).occ = some (s.partOf g) →
    let stays := exec (.loadReturn id) s = .next s
    let goesOn := fun (t : State) => look t.reqs id = none ∧ ∃ g', t.gang r.gang = some g' ∧ g' = { g with splits := g'.splits } ∧
      g'.splits = g.splits.map fun x => if x.2.run = .busy ∧ x.2.mask &&& r.mask ≠ 0 then (x.1, { x.2 with run := .ready }) else x
    (∀ q, r.acc = .record q →
      ((g.queue q).results = [] ∨ (∃ x ∈ s.reqs, x.1 < id ∧ x.2.recordOf r.gang q (BitVec.allOnes 32) = true) → stays) ∧
      ∀ x rest, (g.queue q).results = x :: rest → (∀ y ∈ s.reqs, y.1 < id → y.2.recordOf r.gang q (BitVec.allOnes 32) = false) →
        ∃ t g', exec (.loadReturn id) s = .next t ∧ t = { s with gangs := t.gangs, reqs := t.reqs } ∧ look t.reqs id = none ∧
          (∀ k, k ≠ r.gang → t.gang k = s.gang k) ∧ t.gang r.gang = some g' ∧
          g' = { g with q := g'.q, v := g'.v, vEmpty := g'.vEmpty, vTag := g'.vTag, vBad := g'.vBad, s := g'.s, sEmpty := g'.sEmpty,
                        sBad := g'.sBad } ∧
          (g'.queue q).results = rest ∧ (∀ k, k ≠ q → g'.queue k = g.queue k) ∧
          (∀ a b, r.dests = [.v a, .v b] → a ≠ b → ∀ l < 32, r.mask.getLsbD l = true → g'.vFull a l = true ∧ g'.vFull b l = true ∧
            g'.vAt a l = x.extractLsb' 0 32 ∧ g'.vAt b l = x.extractLsb' 32 32) ∧
          ∀ a b, r.dests = [.s a, .s b] → a ≠ b → g'.sFull a = true ∧ g'.sFull b = true ∧ g'.sAt a = x.extractLsb' 0 32 ∧
            g'.sAt b = x.extractLsb' 32 32) ∧
    (∀ word key, r.acc = .phase word → r.dests = [.s key] → (g.sFull key = false → stays) ∧
      (g.sFull key = true → ∃ t g', exec (.loadReturn id) s = .next t ∧ t = { s with gangs := t.gangs, reqs := t.reqs, cores := t.cores } ∧
        look t.reqs id = none ∧ (∀ k, k ≠ r.gang → t.gang k = s.gang k) ∧ t.gang r.gang = some g' ∧
        g' = { g with s := g'.s, sEmpty := g'.sEmpty, sBad := g'.sBad } ∧ g'.sAt key = word ∧ g'.sFull key = true ∧
        (∀ k, k ≠ key → g'.sAt k = g.sAt k ∧ g'.sFull k = g.sFull k) ∧ (r.acq = true → 3 ≤ r.scope → (t.core r.core).l1 = []))) ∧
    (∀ x, r.acc = .enter x → (s.enqueue r.part x = none → stays) ∧
      ∀ u, s.enqueue r.part x = some u → ∃ t, exec (.loadReturn id) s = .next t ∧
        t = { s with parts := u.parts, gangs := t.gangs, reqs := t.reqs } ∧ goesOn t) ∧
    (∀ n patches x, r.acc = .join n patches → look s.graphs (r.part * 256 + n) = some x → (4 ≤ x.triggers.length → stays) ∧
      (x.triggers.length < 4 → ∃ t, exec (.loadReturn id) s = .next t ∧ t = { s with graphs := t.graphs, gangs := t.gangs, reqs := t.reqs } ∧
        goesOn t ∧ look t.graphs (r.part * 256 + n) = some { x with triggers := x.triggers ++ [patches] } ∧
        ∀ k, k ≠ r.part * 256 + n → look t.graphs k = look s.graphs k)) ∧
    ∀ p cores, r.acc = .phalt p cores → ((∃ k ∈ cores, (s.core k).occ = some p) → stays) ∧
      ((∀ k ∈ cores, (s.core k).occ ≠ some p) → ∃ t, exec (.loadReturn id) s = .next t ∧ t = { s with gangs := t.gangs, reqs := t.reqs } ∧
        goesOn t)

/-- R354, R355, R357: a trap that waited for its depth is taken when the depth is free: its lanes, here all of the split's, enter the handler,
and the frame holds what was recorded when it was raised; a rejection that it reports is over with it (R174). R51, R365: a gang that a block halt reaches
stops and writes cause 67 with its lowest split's place and its skid; an evicted gang's frame goes into the seat record that its eviction record carries.
Of what it says, the model's choice, not the spec's: log 35, 73. -/
def Says.WaitingTrapsAndBlockHalts : Prop :=
  (∀ (s : State) (gid e : Nat) (g : Gang) (sp : Split) (x : PendingTrap) (b : Machine.Block) (p : Part), s.gang gid = some g →
    look g.splits e = some sp → sp.run = .parked .depth → sp.trap = some x → s.block g.block = some b → s.part b.part = some p →
    (s.gangMoves gid g = false → exec (.trapEntry gid e) s = .next s) ∧
    (s.gangMoves gid g = true → (look g.traps (sp.depth + 1)).isSome = true → sp.depth < 3 →
      exec (.trapEntry gid e) s = .next (s.setGang gid { g with splits := set g.splits e { sp with pc := x.stay } })) ∧
    (s.gangMoves gid g = true → sp.depth < 3 → e < 4 → look g.traps (sp.depth + 1) = none → s.seatOk g = true → x.lanes = sp.mask → x.cause < 256 → x.addr < 2 ^ 64 →
      x.detail < 2 ^ 64 → ∃ t g', exec (.trapEntry gid e) s = .next t ∧ t.gang gid = some g' ∧
        (let mode : Mode := if sp.mode = .h ∨ x.cause = 65 then .h else .s
        look g'.splits e = some (Split.start x.lanes (if mode = .h then s.htvec else p.tvec) mode (sp.depth + 1) [])) ∧
        (∀ k, k ≠ e → look g'.splits k = look g.splits k) ∧
        look g'.traps (sp.depth + 1) = some
          { mode := sp.mode, depth := sp.depth, entry := e, lanes := x.lanes, saved := some sp.stack, pending := none,
            frame := s.frameCap g (sp.depth + 1) } ∧
        (∀ k m, (k, m) ∈ x.fills → ∀ l < 32, m.getLsbD l = true → g'.vFull k l = true) ∧ (∀ k ∈ x.sfills, g'.sFull k = true) ∧
        g'.v = g.v ∧ g'.s = g.s ∧ g'.k = g.k ∧ g'.c = g.c ∧
        let f := s.frameAt g (sp.depth + 1)
        t.value f 8 = x.addr ∧ t.value (f + 8) 4 = x.lanes.toNat ∧ t.value (f + 12) 4 = x.word.toNat ∧ t.value (f + 16) 4 = x.pc.toNat ∧
          t.value (f + 20) 4 = x.resume.toNat ∧ t.value (f + 24) 1 = x.cause ∧ t.value (f + 26) 1 = e ∧
          t.value (f + 32) 4 = min x.late (2 ^ 32 - 1) ∧ t.value (f + 56) 8 = x.detail ∧ (∀ a, a < f ∨ f + 64 ≤ a → t.byte a = s.byte a) ∧
          (x.inst ≠ 0 → ∀ y ∈ t.reqs, y.2.inst = x.inst → y.2.gang = gid → y.2.lane < 32 → x.lanes.getLsbD y.2.lane = true →
            ∀ cause addr, y.2.stage ≠ .rejected cause addr))) ∧
  ∀ (s : State) (gid e : Nat) (g : Gang) (sp : Split) (r : Store Split) (b : Machine.Block) (h : Halt), s.gang gid = some g →
    g.splits = (e, sp) :: r → s.block g.block = some b → b.halt = some h → h.forever = false → g.stopped = false →
    (∀ x ∈ h.causes, x.1 ≠ gid) → (s.core b.core).occ = some b.part →
    (∀ n seat, g.record = some (n, seat) → seat.length = 512 → ∃ bs, bs.length = 64 ∧ bs[24]? = some 67 ∧
      exec (.blockHalt gid) s = .next (s.setGang gid { g with stopped := true, record := some (n, bs ++ seat.drop 64) })) ∧
    (g.record = none → s.seatOk g = true → g.skid < 256 → e < 256 → ∃ t, exec (.blockHalt gid) s = .next t ∧ t.gang gid = some { g with stopped := true } ∧ (∀ k, k ≠ gid → t.gang k = s.gang k) ∧
      let f := s.frameAt g 0
      t.value (f + 24) 1 = 67 ∧ t.value (f + 16) 4 = sp.pc.toNat ∧ t.value (f + 20) 4 = sp.pc.toNat ∧ t.value (f + 27) 1 = g.skid ∧
        t.value (f + 8) 4 = (~~~g.exited).toNat ∧ t.value (f + 26) 1 = e ∧ ∀ a, a < f ∨ f + 64 ≤ a → t.byte a = s.byte a)

/-- R29, R322: the dispatcher takes the oldest record of the most urgent level that holds one: a record that fails a check leaves its level
and the host learns its code; one that passes is served. Of what it says, the model's choice, not the spec's: log 33. -/
def Says.DispatchChecksTheHeadRecord : Prop :=
  ∀ (s : State) (pid l : Nat) (p : Part) (r : LaunchRec) (rest : List LaunchRec), s.part pid = some p → p.inUse = true → p.serving = none →
    l < 8 → p.level l = r :: rest → (∀ k < l, p.level k = []) →
    let u := s.headerDone pid r.code
    (∀ w, s.readHeader pid p r.code = .ok w → u.launchCode pid p r w = none → ∃ t, exec (.dispatch pid) s = .next t ∧
      t = { u with launches := t.launches, parts := t.parts, nextId := s.nextId + 1 } ∧
      look t.launches s.nextId =
        some { part := pid, record := r, hdr := headerOf w, next := 0, left := r.blocks, taken := false } ∧
      (∀ k, k ≠ s.nextId → look t.launches k = look s.launches k) ∧ t.part pid = some { p with serving := some s.nextId } ∧
      ∀ k, k ≠ pid → t.part k = s.part k) ∧
    ∀ code, (s.readHeader pid p r.code = .error none ∧ code = 0x0101 ∨
        ∃ w, s.readHeader pid p r.code = .ok w ∧ u.launchCode pid p r w = some code) →
      8 ≤ r.completion → r.node = none → (∀ x ∈ s.graphs, x.2.part ≠ pid) → ∃ t, exec (.dispatch pid) s = .next t ∧
        t = { s with parts := t.parts, events := t.events, pageWaits := u.pageWaits, slices := t.slices, tally := t.tally } ∧
        t.part pid = some { p with queues := put [] p.queues l rest } ∧ t.events = (s.post 1 0 code r.addr 4 pid).events

/-- R30, R248, R324, R326: placement of the next block of a launch whose barriers are taken: a block as its header says on the core with the most
free seats, and its gangs with their splits at the entry point, the code and parameter capabilities and the four arguments, all
else zero; the core's L1 is empty. Where no core takes it nothing happens. Of what it says, the model's choice, not the spec's: log 7. -/
def Says.PlacementStartsABlock : Prop :=
  ∀ (s : State) (pid id : Nat) (p : Part) (x : Launch), s.part pid = some p → p.serving = some id → look s.launches id = some x →
    x.part = pid → x.record.group = 0 → x.taken = true → p.halted = false →
    (s.bestCore pid p x.hdr (List.range 512) = none → exec (.blockPlacement pid) s = .next s) ∧
    ∀ core, s.bestCore pid p x.hdr (List.range 512) = some core → ∃ t, exec (.blockPlacement pid) s = .next t ∧ t.mem = s.mem ∧
      t.reqs = s.reqs ∧ core < 512 ∧ p.coreSet.getLsbD core = true ∧ (s.core core).occ = some pid ∧
      t.block s.nextId = some (Block.start id pid x.next core x.record.blocks none false x.hdr) ∧
      (∀ k, k ≠ s.nextId → t.block k = s.block k) ∧ (t.core core).l1 = [] ∧
      look t.launches id = some { x with next := x.next + 1 } ∧
      (∀ k, k ≤ s.nextId ∨ s.nextId + x.hdr.gangs < k → t.gang k = s.gang k) ∧
      ∀ i < x.hdr.gangs, ∃ g, t.gang (s.nextId + 1 + i) = some g ∧ g.block = s.nextId ∧ g.index = i ∧ g.place = .resident ∧
        (let start := fun m => Split.start m (BitVec.ofNat 32 (16 + 2 * x.hdr.entry)) .u 0 []
        g.splits = if x.hdr.compat = true then [(0, start 0xFFFF), (1, start 0xFFFF0000)] else [(0, start (BitVec.allOnes 32))]) ∧
        lookD Cap.null g.c 1 = x.record.code ∧ lookD Cap.null g.c 0 = (if x.record.param.tag = true then x.record.param else Cap.null) ∧
        (∀ k < 4, g.sAt k = x.record.arg k) ∧ (∀ k, 4 ≤ k → g.sAt k = 0) ∧ (∀ k, g.sFull k = true) ∧ g.v = [] ∧ g.vEmpty = [] ∧ g.vTag = [] ∧
        g.k = [] ∧ g.q = [] ∧ g.traps = [] ∧ g.exited = 0

/-- R318, R325: a block all of whose gangs are over, and to whose scratchpad no command or drain writes, is gone with its gangs, and its launch has
one block fewer to complete, or has completed; while a command or drain of its gangs goes on, an entry that says it has completed is left.
R333: a queued trigger leaves its queue and starts a run with the patched records, each node's count of its predecessors; the nodes that have
none enter their levels in order, each but where its own level is full (R321). Of what it says, the model's choice, not the spec's: log 7, 104,
111. -/
def Says.BlocksCompleteAndGraphRunsStart : Prop :=
  (∀ (s : State) (bid : Nat) (b : Machine.Block) (x : Launch), s.block bid = some b →
    (∀ y ∈ s.gangs, y.2.block = bid → s.gangOver y.1 y.2 = true) → s.padBusy bid b = false → b.done = false → b.handler = false → b.group = none →
    look s.launches b.launch = some x → 8 ≤ x.record.completion → x.record.node = none →
    ∃ t, exec (.blockCompletion bid) s = .next t ∧ t = { s with gangs := t.gangs, blocks := t.blocks, launches := t.launches } ∧
      t.block bid = (if s.blockNamed bid = true then some { b with gangsLeft := 0, done := true } else none) ∧
      (∀ k, k ≠ bid → t.block k = s.block k) ∧ (∀ y ∈ t.gangs, y.2.block ≠ bid) ∧
      (∀ y ∈ s.gangs, y.2.block ≠ bid → (∀ z ∈ s.gangs, z.1 = y.1 → z = y) → y ∈ t.gangs) ∧
      look t.launches b.launch = (if 1 < x.left then some { x with left := x.left - 1 } else none) ∧
      ∀ k, k ≠ b.launch → look t.launches k = look s.launches k) ∧
  ∀ (s : State) (pid n : Nat) (p : Part) (g : Graph) (patches : List (Nat × Nat × Word)) (rest : List (List (Nat × Nat × Word))),
    s.part pid = some p → look s.graphs (pid * 256 + n) = some g → g.triggers = patches :: rest →
    let held := g.completion < 8 ∧ s.gridHeldNow p g.completion = true
    (g.running = true ∨ held → exec (.graphRunStart pid n) s = .next s) ∧
    (g.running = false → ¬held → ∃ t g', exec (.graphRunStart pid n) s = .next t ∧
      t = { s with graphs := t.graphs, parts := t.parts, gangs := t.gangs, nextId := s.nextId + 1 } ∧
      look t.graphs (pid * 256 + n) = some g' ∧ g'.running = true ∧ g'.triggers = rest ∧ g'.done = [] ∧ g'.failed = none ∧
      g'.edges = g.edges ∧ (∀ i < g.nodes.length, lookD 0 g'.counts i = g.preds i) ∧
      (let first := (List.range g.nodes.length).filter fun i => g.preds i == 0
      g'.entered.Sublist first ∧ g'.waiting.Sublist first ∧ (∀ i ∈ first, i ∈ g'.entered ↔ i ∉ g'.waiting) ∧
        ∀ i ∈ g'.waiting, ∀ r q, g'.nodes[i]? = some r → t.part g.part = some q → 64 ≤ (q.level r.priority).length) ∧
      g'.nodes.length = g.nodes.length ∧
      (patches = [] → g'.nodes = g.nodes) ∧
      ∀ k off v r, patches = [(k, off, v)] → g.nodes[k]? = some r → off < 16 → ∃ r', g'.nodes[k]? = some r' ∧ r'.tags = r.tags ∧
        r'.bits.extractLsb' (32 * off) 32 = v ∧
        (∀ j < 16, j ≠ off → r'.bits.extractLsb' (32 * j) 32 = r.bits.extractLsb' (32 * j) 32) ∧
        ∀ j, j ≠ k → g'.nodes[j]? = g.nodes[j]?)

/-! ### Eviction and the turns of partitions (02, 18) -/

/-- R45, R46, R48, R370, R373: an evicted gang keeps its registers and takes the lowest free eviction record, sealed under the next HALT
SEQUENCE value, with its seat record's bytes, and no other byte of memory changes; its seat's generation moves on. Reinstated, it takes a free seat with those bytes in its seat
record; where the record does not verify, its block halts for good. Of what it says, the model's choice, not the spec's: log 10, 34, 35, 100. -/
def Says.EvictionAndReinstatement : Prop :=
  (∀ (s : State) (gid n : Nat) (g : Gang) (b : Machine.Block), s.gang gid = some g → s.block g.block = some b → g.place = .resident →
    g.seat < 32 → g.parked = true → (∀ x ∈ s.flueOps, x.2.gang ≠ gid) → (∀ x ∈ s.reqs, x.2.gang ≠ gid) →
    s.runsOn b.part b.core = true → s.genFree b.core g.seat = true → s.seatWanted b.part b.core = true → n < 1024 →
    s.recordOk b.part (evictRecPlace s (b.part * 1024 + n)) = true → s.seatOk g = true →
    (∀ x ∈ s.gangs, s.partOf x.2 = b.part → x.2.record.map Prod.fst ≠ some n) →
    (∀ m < n, ∃ x ∈ s.gangs, s.partOf x.2 = b.part ∧ x.2.record.map Prod.fst = some m) →
    let place := evictRecPlace s (b.part * 1024 + n)
    ∃ t, exec (.eviction gid) s = .next t ∧
      t = { s with
        gangs := t.gangs, evictRecs := t.evictRecs, contexts := t.contexts, cores := t.cores, tally := t.tally, slices := t.slices
        mem := t.mem, tags := t.tags, poison := t.poison, wordBad := t.wordBad, fresh := s.fresh + 1 } ∧
      (∀ a, outsidePlace place a 1 → t.byte a = s.byte a) ∧
      t.gang gid = some { g with place := .evicted, record := some (n, s.bytesAt 0 (s.seatRecord g) 512) } ∧
      (∀ k, k ≠ gid → t.gang k = s.gang k) ∧ (t.context b.part).haltSeq = (s.context b.part).haltSeq + 1 ∧
      look t.evictRecs (b.part * 1024 + n) = some ((t.context b.part).haltSeq.toNat, s.fresh) ∧
      t.value place.1 8 = (t.context b.part).haltSeq.toNat ∧ t.sealCause b.part place ((t.context b.part).haltSeq.toNat, s.fresh) = none ∧
      lookD 0 (t.core b.core).ctxgen g.seat = lookD 0 (s.core b.core).ctxgen g.seat + 1) ∧
  ∀ (s : State) (gid n : Nat) (bytes : List Byte) (g : Gang) (b : Machine.Block), s.gang gid = some g → s.block g.block = some b →
    g.record = some (n, bytes) → g.place = .evicted → s.runsOn b.part b.core = true → s.gangWakes gid g = true →
    (s.free b.part b.core).seats ≠ 0 → b.hdr.regs ≤ (s.free b.part b.core).regs →
    s.recordOk b.part (evictRecPlace s (b.part * 1024 + n)) = true →
    let seat := s.freeSeat b.part b.core
    let place := evictRecPlace s (b.part * 1024 + n)
    (∀ kept cause, look s.evictRecs (b.part * 1024 + n) = some kept → s.sealCause b.part place kept = some cause →
      ∃ t b', exec (.reinstatement gid) s = .next t ∧ t.block g.block = some b' ∧ b'.halt = some { causes := [], forever := true }) ∧
    ((∀ kept, look s.evictRecs (b.part * 1024 + n) = some kept → s.sealCause b.part place kept = none) → s.seatOk { g with seat := seat } = true →
      bytes.length = 512 →
      ∃ t g', exec (.reinstatement gid) s = .next t ∧ t.gang gid = some g' ∧
        t = { s with
          gangs := t.gangs, evictRecs := t.evictRecs, reqs := t.reqs, tally := t.tally, slices := t.slices
          mem := t.mem, tags := t.tags, poison := t.poison, wordBad := t.wordBad } ∧
        g' = { g with place := .resident, seat := seat, record := none, traps := g'.traps } ∧ (∀ k, k ≠ gid → t.gang k = s.gang k) ∧
        look t.evictRecs (b.part * 1024 + n) = none ∧
        t.bytesAt 0 (s.seatRecord { g with seat := seat }) 512 = bytes ∧
        ∀ a, a < s.seatRecord { g with seat := seat } ∨ s.seatRecord { g with seat := seat } + 512 ≤ a → t.byte a = s.byte a)

/-- R370: the device restores a sealed record only where its first eight bytes are the HALT SEQUENCE value kept for it, else cause 84, and the rest
verifies, else cause 85. R47, R48, R50, R369, R370: a free core goes to the next partition in turn; a slice that is not over stays; one that is
over clears SLICECLK, and starts to halt where another partition waits for the core; a halting context leaves once it has drained, sealing
its record under the next HALT SEQUENCE value, and no byte of memory outside the record changes. R335: the damper starts anew with the context that
takes the core. Of what it says, the model's choice, not the spec's: log 7, 10, 112. -/
def Says.SlicesEndAndTurnsPass : Prop :=
  (∀ (s : State) (part seq n : Nat) (place : Nat × Nat), (s.value place.1 8 ≠ seq → 8 ≤ place.2 → s.sealCause part place (seq, n) = some 84) ∧
    (s.value place.1 8 = seq → 8 ≤ place.2 → s.bytesAt 0 place.1 place.2 ≠ s.sealedBytes part place.2 seq n →
      s.sealCause part place (seq, n) = some 85)) ∧
  (∀ (s : State) (core n : Nat), (s.core core).occ = none → s.nextTurn core (s.core core).lastTurn = some n →
    look s.coreRecs (n * 512 + core) = none → ∃ t, exec (.sliceEnd core) s = .next t ∧ (t.core core).occ = some n ∧
      (t.core core).lastTurn = n ∧ lookD 0 (t.core core).sliceclk n = 0 ∧ (t.core core).allow = 32 ∧ (t.core core).score = 0 ∧ (t.core core).halting = false ∧
      t.mem = s.mem ∧ ∀ k, k ≠ core → t.core k = s.core k) ∧
  ∀ (s : State) (core pid : Nat) (p : Part), (s.core core).occ = some pid → s.part pid = some p →
    let isOver := p.slicelen.toNat ≤ (lookD 0 (s.core core).sliceclk pid).toNat
    let next := s.nextTurn core pid
    let leaves := p.halted = true ∨ (s.core core).halting = true
    (¬leaves → ¬isOver → exec (.sliceEnd core) s = .next s) ∧
    (¬leaves → isOver → exec (.sliceEnd core) s = .next (s.setCore core { s.core core with
      sliceclk := put 0 (s.core core).sliceclk pid 0, halting := decide (next ≠ none ∧ next ≠ some pid) })) ∧
    (leaves → s.drained core pid = false → exec (.sliceEnd core) s = .next s) ∧
    (leaves → next = none → s.drained core pid = true → s.recordOk pid (coreRecPlace s (pid * 512 + core)) = true →
      (∀ x ∈ s.reqs, x.2.core = core → x.2.part ≠ pid) → let place := coreRecPlace s (pid * 512 + core)
      ∃ t, exec (.sliceEnd core) s = .next t ∧
        t = { s with
          cores := t.cores, contexts := t.contexts, coreRecs := t.coreRecs, reqs := t.reqs, tally := t.tally, slices := t.slices
          mem := t.mem, tags := t.tags, poison := t.poison, wordBad := t.wordBad, fresh := s.fresh + 1 } ∧
        (∀ a, outsidePlace place a 1 → t.byte a = s.byte a) ∧ (t.core core).occ = none ∧ (t.core core).halting = false ∧
        (t.core core).lastTurn = pid ∧ (t.context pid).haltSeq = (s.context pid).haltSeq + 1 ∧
        look t.coreRecs (pid * 512 + core) = some ((t.context pid).haltSeq.toNat, s.fresh) ∧
        t.value place.1 8 = (t.context pid).haltSeq.toNat ∧
        ∀ (x : Nat × Gang), s.gangs = [x] → s.coreOf x.2 = core → s.partOf x.2 = pid → x.2.place = .resident →
          lookD 0 (t.core core).ctxgen x.2.seat = lookD 0 (s.core core).ctxgen x.2.seat + 1)

/-! ### Messages and handlers (17) -/

/-- R343, R344, R345: the oldest message of a core arrives at its destination: in the inbound queue while it has room and no message for that
core waits in an overflow area, else at a free place of its partition's overflow area, sealed in confidential mode; while that area is full it
stays; one to a port leaves. A peer's message arrives with ROUTE 1, its port and its core as sender. Of what it says, the model's choice, not the
spec's: log 36. -/
def Says.MessagesArriveInOrder : Prop :=
  (∀ (s : State) (src : Nat) (m : Msg) (rest : List Msg), (s.core src).outbound = m :: rest → m.route ≠ 1 →
    ∀ p, s.part m.part = some p → p.inUse = true →
      ((s.core m.core).inbound.length < 64 → s.spilledFor m = false → ∃ t, exec (.messageArrival src none) s = .next t ∧
        t = { s with cores := t.cores, tally := t.tally } ∧ (t.core src).outbound = rest ∧ (t.core m.core).inbound = (s.core m.core).inbound ++ [m] ∧
        (∀ k, k ≠ src → (t.core k).outbound = (s.core k).outbound) ∧ ∀ k, k ≠ m.core → (t.core k).inbound = (s.core k).inbound) ∧
      let n := s.overflowPlace m.part
      let a := p.area + 0x900000 + 64 * n
      (64 ≤ (s.core m.core).inbound.length ∨ s.spilledFor m = true →
        (16384 ≤ n → rest = [] → exec (.messageArrival src none) s = .next s) ∧
        (n < 16384 → p.broken = false → s.ownArea p a 64 = true → ∃ t, exec (.messageArrival src none) s = .next t ∧
          t = { s with
            cores := t.cores, tally := t.tally, slices := t.slices, mem := t.mem, tags := t.tags, poison := t.poison, wordBad := t.wordBad
            overflow := s.overflow ++ [{ msg := m, place := n, stamp := s.fresh }], fresh := s.fresh + 1 } ∧
          (t.core src).outbound = rest ∧ (∀ k, (t.core k).inbound = (s.core k).inbound) ∧
          (∀ x ∈ s.overflow, x.msg.part = m.part → x.place ≠ n) ∧ t.bytesAt 0 a 64 = s.overflowBytes m.part s.fresh ∧
          ∀ x, x < a ∨ a + 64 ≤ x → t.byte x = s.byte x))) ∧
  (∀ (s : State) (src : Nat) (m : Msg) (rest : List Msg) (p : Port), (s.core src).outbound = m :: rest → m.route = 1 →
    look s.ports m.port = some p → p.up = true → ∃ t, exec (.messageArrival src none) s = .next t ∧ t = { s with cores := t.cores, tally := t.tally } ∧
      (t.core src).outbound = rest ∧ ∀ k, (t.core k).inbound = (s.core k).inbound) ∧
  ∀ (s : State) (pid : Nat) (x : PeerMessage) (p : Port) (q : Part) (code : Cap), look s.ports x.port = some p → s.part pid = some q →
    p.up = true → (∃ y ∈ p.pairs, y.1 = pid) → x.dest < 512 → q.coreSet.getLsbD x.dest = true → look q.handlers x.handler = some code →
    x.port < 12 → x.handler < 256 → x.sender < 512 → q.inUse = true → (s.core x.dest).inbound.length < 64 → (∀ y ∈ s.overflow, y.msg.core ≠ x.dest) →
    ∃ t m, exec (.messageArrival pid (some x)) s = .next t ∧ t = { s with cores := t.cores } ∧
      (t.core x.dest).inbound = (s.core x.dest).inbound ++ [m] ∧ m.part = pid ∧ m.core = x.dest ∧ m.handler = x.handler ∧
      m.sender.extractLsb' 30 2 = 1 ∧ m.sender.extractLsb' 26 4 = BitVec.ofNat 4 x.port ∧
      m.sender.extractLsb' 17 9 = BitVec.ofNat 9 x.sender ∧ m.sender.extractLsb' 0 17 = 0 ∧
      m.payload = (List.range 16).map fun i => x.payload.getD i 0

/-- R346, R348: a free handler seat of the occupying partition takes the oldest message for it: a block of one gang with the message's words in
lane 0 of v0 to v15 and in s0 to s15, the sender in s16, the handler's code capability, and its split at the entry point. Of what it says, the
model's choice, not the spec's: log 33. -/
def Says.HandlersSpawnWithTheirMessage : Prop :=
  ∀ (s : State) (core pid seat : Nat) (p : Part) (m : Msg) (rest : List Msg) (code : Cap) (w : List Word), (s.core core).occ = some pid →
    s.part pid = some p → (s.core core).inbound = m :: rest → m.part = pid → (∀ x ∈ s.overflow, x.msg.core ≠ core) →
    (seat = 32 ∨ seat = 33) → (∀ x ∈ s.gangs, s.coreOf x.2 = core → s.partOf x.2 = pid → x.2.seat ≠ seat) →
    (seat = 33 → ∃ x ∈ s.gangs, s.coreOf x.2 = core ∧ s.partOf x.2 = pid ∧ x.2.seat = 32) →
    look p.handlers m.handler = some code → s.readHeader pid p code = .ok w →
    ∃ t g, exec (.handlerSpawn core) s = .next t ∧ (t.core core).inbound = rest ∧ (t.core core).l1 = [] ∧ t.mem = s.mem ∧
      t.block s.nextId = some (Block.start 0 pid 0xFFFFFFFF core 1 none true (headerOf w)) ∧ t.gang (s.nextId + 1) = some g ∧
      (∀ k, k ≠ s.nextId + 1 → t.gang k = s.gang k) ∧ g.block = s.nextId ∧ g.seat = seat ∧ g.place = .resident ∧
      (∀ i < 16, g.vAt i 0 = m.payload.getD i 0 ∧ g.sAt i = m.payload.getD i 0) ∧ g.sAt 16 = m.sender ∧
      (∀ i l, 0 < l → l < 32 → g.vAt i l = 0) ∧ lookD Cap.null g.c 1 = code ∧
      (let start := fun x => Split.start x (BitVec.ofNat 32 (16 + 2 * (headerOf w).entry)) .u 0 []
      g.splits = if (headerOf w).compat = true then [(0, start 0xFFFF), (1, start 0xFFFF0000)] else [(0, start (BitVec.allOnes 32))])

/-! ### Power, energy and memory scrubbing (01, 10, 17, 20) -/

/-- R16, R335: the power controller steps the clock at the end of a window, and the damper's allowance halves, doubles or stays by the window's
score. The windows end at multiples of 1,024 clk. Of what it says, the model's choice, not the spec's: log 7, 112. -/
def Says.PowerStepsAndDamperWindows : Prop :=
  (∀ (s : State) (power : Nat) (temps : List Nat), let cool := power < 3240 ∧ ∀ x ∈ temps, x < 95
    let hot := 3600 < power ∨ ∃ x ∈ temps, 105 ≤ x
    ∃ t, exec (.powerWindowEnd power temps) s = .next t ∧
      t = { s with clkStep := t.clkStep, coolWins := t.coolWins, health := (power, temps) } ∧
      (hot → s.clkStep.toNat < 2 → t.clkStep = s.clkStep + 1) ∧ (hot → s.clkStep = 2 → t.clkStep = 2) ∧
      (cool → t.coolWins = min (s.coolWins + 1) 10) ∧ (¬cool → t.coolWins = 0) ∧
      (cool → 9 ≤ s.coolWins → s.clkStep ≠ 0 → t.clkStep = s.clkStep - 1) ∧ (¬hot → ¬cool ∨ s.coolWins < 9 → t.clkStep = s.clkStep)) ∧
  ∀ (s : State) (core : Nat), let k := s.core core
    (s.clk.toNat / 1024 ≤ k.dampWin → exec (.damperWindowEnd core) s = .next s) ∧
    (k.dampWin < s.clk.toNat / 1024 → ∃ t, exec (.damperWindowEnd core) s = .next t ∧ t = { s with cores := t.cores } ∧
      t.core core = { k with score := 0, dampWin := s.clk.toNat / 1024,
                             allow := if 256 < k.score then max 4 (k.allow / 2) else if k.score < 64 then min 32 (k.allow * 2) else k.allow } ∧
      ∀ n, n ≠ core → t.core n = s.core n)

/-- R395 to R397, R400: a reconciliation gives each account its share of each component and the device account the rest, all in one step with
WINDOW; no energy is lost; the record that the energy register of a power loss comes from is what was last written. Of what it
says, the model's choice, not the spec's: log 51, 98. -/
def Says.EnergyIsAccountedWhole : Prop :=
  (∀ (energy : Nat) (uses : List (Nat × Nat)), ((shareOut energy uses).map (·.2)).sum = energy ∧
    ∀ k u, (k, u) ∈ uses → k < 256 → (uses.map (·.2)).sum ≠ 0 → (k, energy * u / (uses.map (·.2)).sum) ∈ shareOut energy uses) ∧
  (∀ (s : State) (n device k u : Nat), k < 256 → n ≠ 0 → n ≠ 1 → n ≠ 3 →
    ((k, u) ∈ s.usesOf n device ↔ u = lookD 0 s.tally (n * 256 + k) ∧ u ≠ 0)) ∧
  (∀ (s : State) (m : Measurement),
    let total := fun (e : Energy) (k : Nat) => (lookD 0 e.counts k).toNat * 2 ^ 32 + (lookD 0 e.fracs k).toNat
    ∃ t, exec (.energyReconciliation m) s = .next t ∧ t = { s with
        energy := { s.energy with counts := t.energy.counts, fracs := t.energy.fracs, window := s.energy.window + 1 }
        cores := t.cores, tally := [], energyClk := s.clk } ∧
      (rising s.cores = true → ∀ n, t.core n = { s.core n with work := [] }) ∧
      ∀ k, let units := (((s.shares m).filter fun x => x.1 == k).map (·.2)).sum
        total s.energy k + units < 2 ^ 96 → total t.energy k = total s.energy k + units) ∧
  ∀ s : State, exec .energyPersist s = .next { s with nv := { s.nv with energy := s.energy } }

/-- R401, R402: ESIGN's request writes the signed reading of its partition's account at its address, with the next SEQUENCE, and its split goes on.
R211, R213: the background read of HBM poisons each word it finds uncorrectable, and changes no byte. Of what it says, the model's choice, not the
spec's: log 47. -/
def Says.SignedReadingsAndBackgroundReads : Prop :=
  (∀ (s : State) (gid e id : Nat) (r : Req) (g : Gang) (sp : Split) (p : Part), s.reqs = [(id, r)] → r.acc = .sign → r.stage = .sent →
    r.gang = gid → s.gang gid = some g → look g.splits e = some sp → sp.run = .busy → sp.mask &&& r.mask ≠ 0 → s.part r.part = some p →
    r.size = 4864 → r.addr + 4864 ≤ 2 ^ 47 → s.reach r.core r.part r.cap.colour r.cap.gen true r.addr 4864 = .ok →
    ∃ t bs, exec (.signedReadingWrite gid e) s = .next t ∧ t.reqs = [] ∧ t.energy.seqNo = s.energy.seqNo + 1 ∧ bs.length = 4864 ∧
      t.bytesAt 0 r.addr 4864 = bs ∧ (∀ a, a < r.addr ∨ r.addr + 4864 ≤ a → t.byte a = s.byte a) ∧
      leNat (bs.take 4) = 0x52454E45 ∧ bs[6]? = some (BitVec.ofNat 8 p.colour.toNat) ∧ bs[7]? = some 0 ∧
      leNat ((bs.drop 8).take 8) = t.energy.seqNo.toNat ∧
      leNat ((bs.drop 16).take 8) = (lookD 0 s.energy.counts p.colour.toNat).toNat ∧
      leNat ((bs.drop 32).take 8) = s.energy.window.toNat ∧
      ∃ g', t.gang gid = some g' ∧ g' = { g with splits := g'.splits } ∧ look g'.splits e = some { sp with run := .ready }) ∧
  ∀ (s : State) (ces ues : List Nat), ∃ t, exec (.hbmBackgroundRead ces ues) s = .next t ∧
    t = { s with poison := t.poison, soft := t.soft, events := t.events } ∧
    ∀ u, lookD false t.poison u = true ↔ lookD false s.poison u = true ∨ (u ∈ ues ∧ u * 32 < 0x6000000000)

/-! ### Lists and the sweeper (19) -/

/-- R381, R382, R384, R385: the oldest list of the queue is applied whole, or rejected: a rejected list changes nothing but the queue, and its issuer
learns the failing entry and the reason; the result fills S[b], and the issuing core's L1 is empty then. R385's mailbox form gives
MBRESULT. R193: the result comes once no extent that the list changed stands anywhere under its old entry. An accepted list halts the contexts
that it ends, and is applied when they have left their cores. What it read has passed through the shared cache (R200). Of what it says, the model's
choice, not the spec's: log 7, 62, 101. -/
def Says.ListsApplyWholeOrNotAtAll : Prop :=
  let told := fun (u t : State) (l : CmdList) (w : Word) =>
    (∀ gid key g, l.dest = some (gid, key) → u.gang gid = some g → ∃ g', t.gang gid = some g' ∧ g'.sAt key = w ∧ g'.sFull key = true ∧
      g' = { g with s := g'.s, sEmpty := g'.sEmpty } ∧ (∀ k, k ≠ key → g'.sAt k = g.sAt k) ∧ (t.core (u.coreOf g)).l1 = [] ∧
      t = { u with gangs := t.gangs, cores := t.cores }) ∧
    (l.dest = none → t = { u with mailbox := { u.mailbox with result := w, busy := false, status := 0, run := none } })
  (∀ (s : State) (l : CmdList) (rest : List CmdList), s.cmdQueue = l :: rest →
    let popped := fun (u : State) => { u with cmdQueue := u.cmdQueue.drop 1 }
    let ends := fun (u : State) (w : Word) => ∃ t, exec .reconfigurationListApply s = .next t ∧ told (popped u) t l w
    (l.stage = .queued →
      (∀ reason, s.readList l = .error reason → ends s (BitVec.ofNat 32 (2 ^ 31 + reason))) ∧
      ∀ xs, s.readList l = .ok xs → let u := s.listTouched l (xs.filterMap id)
        (∀ i reason, u.applyEntries xs 0 = .error (i, reason) → ends u (BitVec.ofNat 32 (2 ^ 31 + i * 2 ^ 16 + reason))) ∧
        ∀ v, u.applyEntries xs 0 = .ok v →
          (u.awaits (xs.filterMap id) = false → (v.changing = [] → ends v 0) ∧
            (v.changing ≠ [] → exec .reconfigurationListApply s = .next { v with
              cmdQueue := v.cmdQueue.modify 0 fun x => { x with stage := .applied v.changing } })) ∧
          (u.awaits (xs.filterMap id) = true → ∃ t, exec .reconfigurationListApply s = .next t ∧
            t = { u with cmdQueue := { l with stage := .accepted (xs.filterMap id) } :: rest, parts := t.parts, contexts := t.contexts, cores := t.cores } ∧
            ∀ x ∈ xs.filterMap id, ekind x.entry = 0x42 → ∀ p, s.part (ebits x.entry 0 5 0) = some p →
              ∃ q, t.part (ebits x.entry 0 5 0) = some q ∧ q.halted = true)) ∧
    (∀ xs, l.stage = .accepted xs → (s.awaits xs = true → exec .reconfigurationListApply s = .next s) ∧
      (s.awaits xs = false → (s.applyAccepted xs).changing = [] → ends (s.applyAccepted xs) 0)) ∧
    ∀ es, l.stage = .applied es → ((∃ x ∈ es, x ∈ s.changing) → exec .reconfigurationListApply s = .next s) ∧
      ((∀ x ∈ es, x ∉ s.changing) → ends s 0)) ∧
  (∀ (s : State) (l : CmdList) (xs : List ListItem), ∃ x y, s.listTouched l xs = { s with slices := x, tally := y }) ∧
  (∀ (s : State) (xs : List (Option ListItem)) (i : Nat), s.applyEntries [] i = .ok s ∧ s.applyEntries (none :: xs) i = .error (i, 0x000D) ∧
    ∀ x, (∀ reason, s.applyEntry false x = .error reason → s.applyEntries (some x :: xs) i = .error (i, reason)) ∧
      ∀ u, s.applyEntry false x = .ok u → s.applyEntries (some x :: xs) i = u.applyEntries xs (i + 1)) ∧
  ∀ (s : State) (x : ListItem), entryBits (ekind x.entry) = none →
    s.applyEntry false x = .error (if entryClean x.entry = true then 2 else 1)

/-- R386, R387: a sweep pass clears the tag of every stale capability in memory, and of no other, changing no byte outside the sealed records, which
it reseals at no partition's cost (R388); the end of a pass adds 1 to
SWEEPPASS, frees the extents that were sweeping when it began, and lets their colours go. Of what it says, the model's choice, not the spec's: log 7,
10, 71. -/
def Says.SweepsClearStaleTags : Prop :=
  (∀ s : State, s.sweep = none → (s.sweepAsked = true ∨ s.retired ≠ [] ∨ ∃ x ∈ s.extents, extState x.2 = 3) → ∃ t w,
    exec .sweepPass s = .next t ∧ t = { s with
      sweep := some w, sweepAsked := false, tags := t.tags, gangs := t.gangs, blocks := t.blocks, contexts := t.contexts
      coreRecs := t.coreRecs, evictRecs := t.evictRecs, mem := t.mem, poison := t.poison, wordBad := t.wordBad, reqs := t.reqs, fresh := t.fresh, slices := t.slices } ∧ w.colours = s.retired ∧
    (∀ e, e ∈ w.extents ↔ e ∉ s.changing ∧ ∃ x, (e, x) ∈ s.extents ∧ extState x = 3) ∧
    (∀ a, s.OutsideRecords a 1 → t.byte a = s.byte a) ∧
    (∀ k, s.OutsideRecords (16 * k) 16 → lookD false t.tags k = (lookD false s.tags k && !s.stale (s.capAt (16 * k)))) ∧
    ∀ gid g, s.gang gid = some g → rising g.c = true → ∃ g', t.gang gid = some g' ∧
      (∀ k, lookD Cap.null g'.c k = s.swept (lookD Cap.null g.c k)) ∧ g'.v = g.v ∧ g'.s = g.s ∧ g'.k = g.k) ∧
  (∀ s : State, s.sweep = none → s.sweepAsked = false → s.retired = [] → (∀ x ∈ s.extents, extState x.2 ≠ 3) →
    exec .sweepPass s = .next s) ∧
  (∀ (s : State), s.sweep = none ∨ s.listAccepted = true → exec .sweepPassCompletion s = .next s) ∧
  ∀ (s : State) (w : Sweep), s.sweep = some w → s.listAccepted = false → ∃ t, exec .sweepPassCompletion s = .next t ∧
    t = { s with sweep := none, sweepPass := s.sweepPass + 1, extents := t.extents, retired := t.retired } ∧
    (∀ e, t.extent e = if e ∈ w.extents ∧ extState (s.extent e) = 3 then withState (s.extent e) 0 else s.extent e) ∧
    ∀ c, c ∈ t.retired ↔ c ∈ s.retired ∧ c ∉ w.colours

/-! ### The host and its registers (10, 21) -/

/-- R202 to R204: a snoop takes a line of the window from every slice and writes the host's bytes; an answered request enters its translation
or stands as a page request; an invalidation removes every translation that it covers; a response frees the entries of its page. Of what it says, the
model's choice, not the spec's: log 7, 43. -/
def Says.HostWindowTranslations : Prop :=
  (∀ (s : State) (pasid line : Nat) (data : List HostCell), ∃ t, exec (.hostSnoop pasid line data) s = .next t ∧
    t = { s with slices := t.slices, hostMem := t.hostMem, reqs := t.reqs } ∧
    (∀ k, ∀ x ∈ lookD [] t.slices k, ¬(x.line = pasid * 2 ^ 41 + line ∧ isHost (x.line * 128) = true)) ∧
    (rising s.slices = true → ∀ k, ∀ x ∈ lookD [] s.slices k, x.line ≠ pasid * 2 ^ 41 + line → x ∈ lookD [] t.slices k) ∧
    (∀ a b, (a, b) ∈ data → (∀ c ∈ data, c.1 = a → c = (a, b)) → isHost a = true → a < 2 ^ 48 → a / 128 = line →
      lookD 0 t.hostMem (pasid * 2 ^ 48 + a) = b) ∧
    ∀ a, (∀ c ∈ data, a ≠ pasid * 2 ^ 48 + c.1) → lookD 0 t.hostMem a = lookD 0 s.hostMem a) ∧
  (∀ (s : State) (die pasid page size : Nat) (res : AtsResult) (r : AtsReq),
    (s.atsOut.find? fun x => x.isFor die pasid page) = some r → ∃ t, exec (.atsCompletion die pasid page size res) s = .next t ∧
    (∀ x ∈ t.atsOut, x.isFor die pasid page = false ∨ res = .error) ∧
    (res = .translated ∨ res = .readOnly → (s.xlate.filter fun x => x.1 == die).length < 4096 →
      t = { s with atsOut := t.atsOut, xlate := s.xlate ++ [(die, pasid, page * 4096 / max size 4096 * max size 4096, max size 4096,
        res == .readOnly)] }) ∧
    (res = .notPresent → t = { s with atsOut := t.atsOut, pageReqs := t.pageReqs, reqs := s.reqs.filter fun x => !x.2.fetchesAhead die r.part page } ∧
      (r.quiet = true → t.pageReqs = s.pageReqs) ∧
      (r.quiet = false → ∃ x ∈ t.pageReqs, x.part = r.part ∧ x.page = page ∧ die ∈ x.dies))) ∧
  (∀ (s : State) (pasid page size : Nat), ∃ t, exec (.atsInvalidation pasid page size) s = .next t ∧ t = { s with xlate := t.xlate } ∧
    (∀ x, x ∈ t.xlate ↔ x ∈ s.xlate ∧ ¬(x.2.1 = pasid ∧ x.2.2.1 < page * 4096 + max size 4096 ∧ page * 4096 < x.2.2.1 + x.2.2.2.1)) ∧
    ∀ die a, page * 4096 ≤ a → a < page * 4096 + max size 4096 → t.translation die pasid a = none) ∧
  ∀ (s : State) (pasid page : Nat), ∃ t, exec (.pageRequestResponse pasid page true) s = .next t ∧ t = { s with pageReqs := t.pageReqs } ∧
    (∀ x ∈ t.pageReqs, x.page = page → s.pasid x.part = pasid → ∃ y ∈ s.pageReqs, y.entry = 0 ∧ y.part = x.part ∧ y.page = page ∧ y.dies = x.dies) ∧
    ∀ x ∈ s.pageReqs, x.page ≠ page ∨ s.pasid x.part ≠ pasid → ∃ y ∈ t.pageReqs, y.part = x.part ∧ y.page = x.page ∧ y.dies = x.dies

/-- R319, R380, R403, R404, R406, R408: the host's accesses to device memory and to its registers, in and out of confidential mode: what they
write and read, what is dropped and logged, the doorbell's snapshot, and the entries that an advance of EVTAIL lets into the ring in host memory, in
order, each with a signal. Of what it says, the model's choice, not the spec's: log 44, 45, 46, 66, 79, 113. -/
def Says.HostAccessesAndRegisters : Prop :=
  let logged := fun (s t : State) => t = { s with audit := t.audit, auditCount := s.auditCount + 1 }
  let answered := fun (s t : State) (bs : List Byte) => t.hostAnswer = bs ∧ t = { s with
    hostAnswer := bs, fresh := s.fresh + 1, slices := t.slices, tally := t.tally, audit := t.audit, auditCount := t.auditCount }
  (∀ (s : State) (off : Nat) (bs : List Byte),
    (s.confidential = false → off + bs.length ≤ 0x6000000000 → ∃ t, exec (.hostCxlMemAccess off 0 (some bs) false) s = .next t ∧
      t.bytesAt 0 off bs.length = bs ∧ ∀ a, a < off ∨ off + bs.length ≤ a → t.byte a = s.byte a) ∧
    (s.confidential = true →
      let c := s.channel (off / 2 ^ 36)
      let a := c.first * 0x200000 + off % 2 ^ 36
      let inside := off / 2 ^ 36 < 16 ∧ off % 2 ^ 36 + bs.length ≤ c.count * 0x200000 ∧ c.state = 1
      (¬inside → ∃ t, exec (.hostCxlMemAccess off 0 (some bs) false) s = .next t ∧ logged s t) ∧
      (inside → (c.first + c.count) * 0x200000 ≤ 0x6000000000 → ∃ t, exec (.hostCxlMemAccess off 0 (some bs) false) s = .next t ∧
        t.bytesAt 0 a bs.length = bs ∧ (∀ x, x < a ∨ a + bs.length ≤ x → t.byte x = s.byte x) ∧
        t.channel (off / 2 ^ 36) = { c with host := c.host + BitVec.ofNat 64 bs.length, device := c.device + BitVec.ofNat 64 bs.length }))) ∧
  (∀ (s : State) (off n : Nat),
    let read := fun (bs : List Byte) (logs : Bool) => ∃ t, exec (.hostCxlMemAccess off n none false) s = .next t ∧
      answered s t bs ∧ t.auditCount = (if logs then s.auditCount + 1 else s.auditCount)
    let c := s.channel (off / 2 ^ 36)
    let inside := off / 2 ^ 36 < 16 ∧ off % 2 ^ 36 + n ≤ c.count * 0x200000 ∧ c.state = 1
    (s.confidential = false → off + n ≤ 0x6000000000 → read (s.hostBytes off n) false) ∧
    (s.confidential = true → (inside → read (s.hostBytes (c.first * 0x200000 + off % 2 ^ 36) n) false) ∧ (¬inside → read (List.replicate n 0) true)) ∧
    ∀ a, s.poisoned a n = false → s.hostBytes a n = s.bytesAt 0 a n) ∧
  (∀ (s : State) (off : Nat),
    let refused := s.confidential = true ∧ hostRegister off = false ∧ s.readable off = false
    ∃ t, exec (.hostRegisterRead off) s = .next t ∧ answered s t (leBytes 4 (if refused then 0 else (s.register off).toNat)) ∧
      t.slices = s.slices ∧ t.tally = s.tally ∧ t.auditCount = (if refused then s.auditCount + 1 else s.auditCount) ∧
      s.register 0 = s.mailbox.cmd ∧ s.register 4 = (if s.mailbox.busy = true then 0x80000000#32 else 0) ||| s.mailbox.status.setWidth 32 ∧
      (∀ i < 4, s.register (8 + 4 * i) = s.mailbox.args.getD i 0) ∧ s.register 0x18 = s.mailbox.result ∧ s.register 0x1C = 0 ∧
      s.register 0x48 = BitVec.ofNat 32 s.events.head ∧ s.register 0x4C = BitVec.ofNat 32 s.events.tail ∧ s.register 0x50 = s.events.lost ∧
      ∀ i, i % 4 = 0 → i < 16384 → s.register (0x1000 + i) = BitVec.ofNat 32 (leNat (readFrom s.mailbox.data i 4))) ∧
  (∀ (s : State) (off : Nat) (val : Word),
    (hostRegister off = false → s.confidential = false → exec (.hostRegisterWrite off val) s = .next s) ∧
    (hostRegister off = false → s.confidential = true → ∃ t, exec (.hostRegisterWrite off val) s = .next t ∧ logged s t) ∧
    exec (.hostRegisterWrite 0x4C val) s = exec (.evtailWrite val) s ∧
    (s.mailbox.busy = true → off = 0x1C ∨ off = 0 ∨ (8 ≤ off ∧ off < 0x18) ∨ (0x1000 ≤ off ∧ off < 0x5000) →
      exec (.hostRegisterWrite off val) s = .next s) ∧
    (s.mailbox.busy = false →
      exec (.hostRegisterWrite 0 val) s = .next { s with mailbox := { s.mailbox with cmd := val } } ∧
      (∃ t, exec (.hostRegisterWrite 0x1C 1) s = .next t ∧
        (mailboxCode s.mailbox.cmd = true → t = { s with mailbox := { s.mailbox with
          busy := true, run := some (s.mailbox.cmd, s.mailbox.args, readFrom s.mailbox.data 0 16384) } }) ∧
        (mailboxCode s.mailbox.cmd = false → s.Ended t 2 [])))) ∧
  (∀ (s : State) (val : Word),
    let e := s.events
    e.held.length ≤ 256 → e.head < 4096 → (∀ b ∈ e.held, b.length = 32) → ∃ t n, exec (.evtailWrite val) s = .next t ∧ t = { s with events := t.events } ∧
      t.events = { e with
        tail := val.toNat % 4096, held := e.held.drop n, head := (e.head + n) % 4096, signals := e.signals + n, ring := t.events.ring } ∧
      n ≤ e.held.length ∧ (t.events.held ≠ [] → (t.events.head + 1) % 4096 = t.events.tail) ∧
      (∀ i < n, readFrom t.events.ring (e.base + 32 * ((e.head + i) % 4096)) 32 = e.held.getD i []) ∧
      ∀ a, a < e.base ∨ e.base + 0x20000 ≤ a → lookD 0 t.events.ring a = lookD 0 e.ring a) ∧
  ∀ (s : State), exec (.hostLinkLoss false) s = .next { s with linkUp := true } ∧ ∀ i ∈ [Instr.hostLinkLoss true, .perst], ∃ t,
    exec i s = .next t ∧ t = { s with linkUp := false, atsOut := [], pageReqs := [], channels := t.channels } ∧
    ∀ n c, look s.channels n = some c → look t.channels n = some (if c.state = 1 ∧ c.host ≠ c.device then { c with state := 2 } else c)

/-- R412 to R414: a link comes up with the report of its peer verified and the port key agreed, the lower device encapsulating to the other's key, and
with no pairs; when it is lost its pairs end and its commands fail; a pair that both sides asked for, and whose measurements verify, holds, and one
whose peer's side no longer verifies ends. Of what it says, the model's choice, not the spec's: log 7, 23, 47, 65. -/
def Obligations.FabricPortsAndPairs : Prop :=
  (∀ (s : State) (port : Nat) (rep : PeerReport), port < 12 → (∀ p, look s.ports port = some p → p.up = false) → ∃ t,
    exec (.linkUp port rep) s = .next t ∧ t = { s with energy := t.energy, ports := t.ports, fresh := t.fresh } ∧
    t.energy = { s.energy with seqNo := s.energy.seqNo + 1 } ∧ (rep.verified = false → t.ports = s.ports) ∧
    (∀ k, k ≠ port → look t.ports k = look s.ports k) ∧
    (rep.verified = true →
      let up := fun (secret : BitVec 256) (cipher : List Byte) => ∃ p, look t.ports port = some p ∧ p.up = true ∧ p.ident = rep.identity ∧
        p.pairs = [] ∧ p.asked = [] ∧ p.cipher = cipher ∧ p.key = portKey secret rep.identity
      let lower := bytesLt (bytes64 Config.identity) (bytes64 rep.identity)
      (lower = true → up (Config.kemSend rep.kemKey s.fresh).2 (Config.kemSend rep.kemKey s.fresh).1) ∧
      (lower = false → (∀ secret, Config.kemOpen rep.ciphertext = some secret → up secret []) ∧
        (Config.kemOpen rep.ciphertext = none → t.ports = s.ports)))) ∧
  (∀ (s : State) (port : Nat) (p : Port), look s.ports port = some p → ∃ t, exec (.linkLoss port) s = .next t ∧
    t = { s with ports := t.ports, engines := t.engines } ∧ (∃ ys, look t.ports port = some { p with up := false, asked := [], pairs := [], sealed := ys }) ∧
    (∀ k, k ≠ port → look t.ports k = look s.ports k) ∧
    ∀ id e, s.engines = [(id, e)] → e.mates = [] →
      (0x20 ≤ e.kind → e.route = 1 → e.peer = port → (∀ c, e.stage ≠ .failing c) →
        look t.engines id = some { e with stage := .failing 0x0502 }) ∧
      (e.kind < 0x20 ∨ e.route ≠ 1 ∨ e.peer ≠ port → t.engines = s.engines)) ∧
  ∀ (s : State) (port mine peer : Nat) (good : Bool) (p : Port), look s.ports port = some p →
    let may := p.up = true ∧ good = true ∧ (mine, peer) ∈ p.asked ∧ ((s.context mine).state = 1 ∨ (s.context mine).state = 2)
    (good = true → ¬may → exec (.peerPair port mine peer good) s = .next s) ∧
    (good = false → ∃ t ys, exec (.peerPair port mine peer good) s = .next t ∧ t = { s with ports := t.ports } ∧
      look t.ports port = some { p with pairs := p.pairs.filter fun x => !(x.1 == mine && x.2.1 == peer), sealed := ys } ∧
      ∀ k, k ≠ port → look t.ports k = look s.ports k) ∧
    (may → ∃ t q key, exec (.peerPair port mine peer good) s = .next t ∧ t = { s with ports := t.ports } ∧ look t.ports port = some q ∧
      (mine, peer, key) ∈ q.pairs ∧ (∀ x ∈ q.pairs, x.1 = mine → x = (mine, peer, key)) ∧ (∀ x ∈ p.pairs, x.1 ≠ mine → x ∈ q.pairs) ∧
      (∀ k, k ≠ port → look t.ports k = look s.ports k) ∧ q = { p with asked := q.asked, pairs := q.pairs })

/-- R332, R405, R409 to R411, R413: each mailbox command, started by its doorbell, ends with its STATUS: 2 for a reserved argument bit, 7 for a partition
that is not in use, and 0 with its effect where its arguments pass. Of what it says, the model's choice, not the spec's: log 7, 23, 41, 45, 47, 69,
79, 82. -/
def Obligations.MailboxCommands : Prop :=
  (∀ row ∈ ([(Instr.mailboxLaunch, 1, [0x3F, 0xFFFFFFFF, 0xFFFF, 0]), (.mailboxGraphTrig, 2, [0xFF3F, 0xFFFFFFFF, 0xFFFF, 0]),
      (.reconfigure, 3, [0, 0xFFFFFFFF, 0xFFFF, 0]), (.energyRead, 4, [0x1FF, 0, 0, 0]), (.attest, 5, [0, 0, 0, 0]), (.kemKey, 6, [0, 0, 0, 0]),
      (.keyLoad, 7, [0x3F3F, 0, 0, 0]), (.channelResync, 8, [0xF, 0, 0, 0]), (.mode_, 9, [1, 0, 0, 0]), (.migrateWrap, 10, [0x3F3F, 0, 0, 0]),
      (.migrateUnwrap, 11, [0x3F, 0, 0, 0]), (.pair, 12, [0x3F3F0F, 0, 0, 0])] : List (Instr × Nat × List Word)), ∀ (s : State) (cmd : Word) (args : List Word)
      (data : List Byte), s.mailbox.run = some (cmd, args, data) → args.length = 4 →
    (cmd.toNat ≠ row.2.1 → exec row.1 s = .next s) ∧
    (cmd.toNat = row.2.1 → (∃ i < 4, args.getD i 0 &&& ~~~row.2.2.getD i 0 ≠ 0) → ∃ t, exec row.1 s = .next t ∧ s.Ended t 2 [])) ∧
  ∀ (s : State) (cmd x y z : Word) (data : List Byte), s.mailbox.run = some (cmd, [x, y, z, 0], data) → data.length = 16384 →
    let pid := x.toNat % 64
    let a := y.toNat + 2 ^ 32 * z.toNat
    let ends := fun (i : Instr) (u : State) (status : Nat) (bs : List Byte) => ∃ t, exec i s = .next t ∧ u.Ended t status bs
    (cmd = 1 → x.toNat < 64 → z.toNat < 2 ^ 16 →
      ((∀ p, s.part pid = some p → p.inUse = false) → ends .mailboxLaunch s 7 []) ∧
      ∀ p, s.part pid = some p → p.inUse = true → let r := s.recordAt 0 a true
        (a % 64 ≠ 0 → ends .mailboxLaunch s 4 []) ∧
        (a % 64 = 0 → s.ownArea p a 64 = true → s.poisoned a 64 = false →
          (64 ≤ (p.level r.priority).length → ends .mailboxLaunch s 5 []) ∧
          ((p.level r.priority).length < 64 →
            ends .mailboxLaunch ((s.touchRun a 64 pid false).setPart pid (p.setLevel r.priority (p.level r.priority ++ [r]))) 0 []))) ∧
    (cmd = 2 → x &&& ~~~0xFF3F = 0 → z.toNat < 2 ^ 16 → ∀ p g, s.part pid = some p → p.inUse = true →
      let key := pid * 256 + x.toNat / 256 % 256
      let count := leNat (s.bytesAt 0 a 16)
      look s.graphs key = some g → a % 16 = 0 → count = 0 → s.ownArea p a 16 = true → s.poisoned a 16 = false →
      (g.triggers.length < 4 → ends .mailboxGraphTrig { s.touchRun a 16 pid false with graphs := set s.graphs key { g with triggers := g.triggers ++ [[]] } } 0 []) ∧
      (4 ≤ g.triggers.length → ends .mailboxGraphTrig s 5 [])) ∧
    (cmd = 3 → x = 0 → z.toNat < 2 ^ 16 → (s.confidential = false ∨ s.hypSet = false) → a % 32 = 0 → s.cmdQueue.length < 16 →
      exec .reconfigure s = .next { s with
        cmdQueue := s.cmdQueue ++ [{ addr := a, cap := none, dest := none }], mailbox := { s.mailbox with run := none } }) ∧
    (cmd = 3 → x = 0 → z.toNat < 2 ^ 16 → s.confidential = true → s.hypSet = true → ends .reconfigure s 3 []) ∧
    (y = 0 → z = 0 →
      let signed : State := { s with energy := { s.energy with seqNo := s.energy.seqNo + 1 } }
      (cmd = 4 → x.toNat < 512 → ∃ bs, ends .energyRead signed 0 bs ∧ leNat (bs.take 4) = 0x52454E45 ∧
        leNat ((bs.drop 16).take 8) = (lookD 0 s.energy.counts (if 256 ≤ x.toNat then 256 else x.toNat)).toNat ∧
        leNat ((bs.drop 8).take 8) = (s.energy.seqNo + 1).toNat ∧ leNat ((bs.drop 32).take 8) = s.energy.window.toNat) ∧
      (cmd = 5 → x = 0 → ∃ bs, ends .attest signed 0 bs ∧ leNat (bs.take 4) = 0x54505441 ∧ (bs.drop 16).take 64 = data.take 64 ∧
        bs[6]? = some (if s.confidential = true then 1 else 0)) ∧
      (cmd = 6 → x = 0 → ends .kemKey s 0 (fit 1568 Config.kemPublic)) ∧
      (cmd = 7 → x &&& ~~~0x3F3F = 0 → (∀ p, s.part pid = some p → p.inUse = false) → ends .keyLoad s 7 []) ∧
      (cmd = 7 → x &&& ~~~0x3F3F = 0 → ∀ p secret, s.part pid = some p → p.inUse = true →
        let slot := x.toNat / 256 % 64
        slot < p.keyCount → s.alive pid = true → bytes64 (s.context pid).measurement = (data.drop 1568).take 64 →
        Config.kemOpen (data.take 1568) = some secret →
        gcmTag (gcmKey secret) (leNat ((data.drop 1632).take 12)) ((data.drop 1568).take 64 ++ leBytes 1 slot) ((data.drop 1644).take 64) =
          (data.drop 1708).take 16 →
        ends .keyLoad { s with keySlots := set s.keySlots (p.keyFirst + slot) { state := 1, colour := p.colour, key := BitVec.ofNat 512 (leNat
          (gcmCrypt (gcmKey secret) (leNat ((data.drop 1632).take 12)) 0 ((data.drop 1644).take 64))) } } 0 []) ∧
      (cmd = 8 → x.toNat < 16 → let c := s.channel x.toNat
        (c.state = 0 → ends .channelResync s 7 []) ∧ (c.state ≠ 0 → ends .channelResync (s.setChannel x.toNat (c.request 1)) 0 [])) ∧
      (cmd = 10 → x &&& ~~~0x3F3F = 0 → (∀ p, s.part pid = some p → p.inUse = false) → ends .migrateWrap s 7 []) ∧
      (cmd = 10 → x &&& ~~~0x3F3F = 0 → ∀ p, s.part pid = some p → p.inUse = true → Config.reportSigned (data.take 9216) = true →
        ((data.take 9216).drop 4448).take 64 = bytes64 (Config.sha3 ((data.drop 9216).take 1568)) → (data.take 9216).getD 6 0 = 1 →
        ((data.take 9216).drop (352 + 64 * (x.toNat / 256 % 64))).take 64 = bytes64 (s.context pid).measurement → ∃ bs,
        ends .migrateWrap ({ s with fresh := s.fresh + 2 }.setContext pid
          { s.context pid with saveCounter := (s.context pid).saveCounter + 1 }) 0 bs) ∧
      (cmd = 11 → x.toNat < 64 → (∀ p, s.part pid = some p → p.inUse = false) → ends .migrateUnwrap s 7 []) ∧
      (cmd = 11 → x.toNat < 64 → ∀ p, s.part pid = some p → p.inUse = true → Config.kemOpen (data.take 1568) = none →
        ends .migrateUnwrap s 6 []) ∧
      (cmd = 11 → x.toNat < 64 → ∀ p secret, s.part pid = some p → p.inUse = true → Config.kemOpen (data.take 1568) = some secret →
        let c := s.context pid
        let nonce := leNat ((data.drop 1568).take 12)
        let ct := (data.drop 1580).take 40
        let plain := gcmCrypt (gcmKey secret) nonce 0 ct
        gcmTag (gcmKey secret) nonce (bytes64 c.measurement) ct = (data.drop 1620).take 16 → c.saveCounter.toNat ≤ leNat (plain.drop 32) →
        ends .migrateUnwrap (s.setContext pid { c with
          importKey := some (BitVec.ofNat 256 (leNat (plain.take 32))), saveCounter := BitVec.ofNat 64 (leNat (plain.drop 32)) }) 0 []) ∧
      (cmd = 12 → x &&& ~~~0x3F3F0F = 0 → ∀ p q, let mine := x.toNat / 256 % 64
        look s.ports (x.toNat % 16) = some p → p.up = true → s.part mine = some q → q.inUse = true → s.alive mine = true →
        let q : Port := { p with asked := p.asked.filter (fun w => w.1 != mine) ++ [(mine, x.toNat / 2 ^ 16 % 64)] }
        ends .pair { s with ports := set s.ports (x.toNat % 16) q } 0 []))

/-! ### Reset (01, 21) -/

/-- R400, R402, R407, R415, R416: MODE, a device reset and a loss of power leave the device scrubbed, in the mode asked for: memory, tables, registers and
everything in flight as after reset. The accounts come back, after a loss of power from the last record with one gap more; SEQUENCE never goes back;
event 10 is posted. Of what it says, the model's choice, not the spec's: log 3, 4, 37, 40, 47, 49, 50, 80. -/
def Obligations.ScrubsLeaveTheResetState : Prop :=
  let scrubbed := fun (s t : State) (conf : Bool) => t.confidential = conf ∧ t.allowList = (if conf then freshAllowList else []) ∧
    t.hostMem = s.hostMem ∧ t.linkUp = s.linkUp ∧ t = { State.reset with
      confidential := t.confidential, allowList := t.allowList, hostMem := t.hostMem, linkUp := t.linkUp, audit := t.audit,
      auditCount := t.auditCount, nv := t.nv, energy := t.energy, agenda := s.agenda, fresh := t.fresh, nextId := s.nextId,
      energyClk := t.energyClk, events := t.events, clk := t.clk, clkStep := t.clkStep, coolWins := t.coolWins,
      health := t.health, mailbox := t.mailbox, ports := t.ports, tally := t.tally, cores := t.cores }
  let atZero := fun (t : State) => t.clk = 0 ∧ t.energyClk = 0 ∧ t.clkStep = 0 ∧ t.mailbox = State.reset.mailbox ∧ t.ports = [] ∧ t.tally = [] ∧ t.cores = [] ∧
    t.events.held = [] ∧ leNat (readFrom t.events.ring 0 2) = 10 ∧ t.events.head = 1 ∧ t.events.signals = 1
  (∀ (s : State) (strap : Bool), ∃ t, exec (.deviceReset strap) s = .next t ∧ scrubbed s t strap ∧ atZero t ∧ t.energy = s.energy ∧
    t.nv = { s.nv with energy := s.energy } ∧ t.auditCount = s.auditCount) ∧
  (∀ (s : State) (strap : Bool), ∃ t, exec (.powerLoss strap) s = .next t ∧ scrubbed s t strap ∧ atZero t ∧
    t.energy = { s.nv.energy with gaps := s.nv.energy.gaps + 1, seqNo := s.energy.seqNo } ∧ t.nv = { s.nv with energy := t.energy }) ∧
  ∀ (s : State) (cmd x : Word) (data : List Byte), s.mailbox.run = some (cmd, [x, 0, 0, 0], data) → cmd = 9 → x.toNat < 2 →
    s.events.held = [] → (s.events.head + 1) % 4096 ≠ s.events.tail → ∃ t, exec .mode_ s = .next t ∧ scrubbed s t (x == 1) ∧ t.clk = s.clk ∧ t.energyClk = s.energyClk ∧
      t.clkStep = s.clkStep ∧ t.energy = s.energy ∧ t.nv = { s.nv with energy := s.energy } ∧ t.mailbox.busy = false ∧ t.mailbox.status = 0 ∧
      t.mailbox.data = [] ∧ (∀ n p, look s.ports n = some p → ∃ ys, look t.ports n = some { p with asked := [], pairs := [], sealed := ys }) ∧
      t.tally = s.tally ∧ (rising s.cores = true → ∀ n, t.core n = { Core.reset with work := (s.core n).work }) ∧ t.events.held = [] ∧
      leNat (readFrom t.events.ring (s.events.base + 32 * s.events.head) 2) = 10 ∧ t.events.head = (s.events.head + 1) % 4096 ∧
      t.events.signals = s.events.signals + 1

/-- R16, R30, R53, R68, R189, R279, R297, R335, R375, R376, R390, R404: what device reset leaves. Of what it says, the model's choice, not the spec's: log
17. -/
def Obligations.ResetLeavesWhatTheRulesSay : Prop :=
  let s := State.reset
  s.clk = 0 ∧ s.clkStep = 0 ∧ s.htvec = 0 ∧ s.sweepPass = 0 ∧ s.parts = [] ∧ s.gangs = [] ∧ s.blocks = [] ∧ s.launches = [] ∧
  (∀ n, s.core n = Core.reset) ∧ Core.reset.softerr = 0 ∧ Core.reset.allow = 32 ∧ Core.reset.occ = none ∧
  (∀ n, lookD 0 Core.reset.sliceclk n = 0 ∧ lookD 0 Core.reset.perf n = 0 ∧ lookD 0 Core.reset.perfsel n = 0 ∧ lookD 0 Core.reset.ctxgen n = 0) ∧
  (∀ a, s.byte a = 0 ∧ s.tagAt a = false ∧ s.extent a = 0) ∧ (∀ n, s.slot n = Slot.vacant) ∧ (∀ n, s.context n = Context.none) ∧
  s.hypRecord.tag = false ∧ s.mailbox.cmd = 0 ∧ s.mailbox.busy = false ∧ s.events.head = 0 ∧ s.events.tail = 0 ∧ s.events.lost = 0 ∧
  ∀ gid e, s.mayIssue gid e = false

/-- The memory of the reset state is in canonical form. The form is the model's own. -/
def Obligations.MemoryIsCanonicalAtReset : Prop := State.Canonical State.reset

/-- Every step keeps device memory and host memory in canonical form: no write of any instruction, engine, trap, reset or host access leaves an
entry out of order, twice, or equal to what an unlisted byte reads as. The form is the model's own. -/
def Obligations.EveryStepKeepsMemoryCanonical : Prop :=
  ∀ s t : State, s.Canonical → step s = .next t → t.Canonical

/-! ### Arithmetic (06, 07) -/

/-- R117: IMAD writes the low 32 bits of a × b + c in each live lane, the same for signed and natural operands; its sources always wait. -/
def Obligations.MultiplyAddWritesTheLowWord : Prop :=
  (∀ x b a d : Reg, decodeTableWord 32 (x ++ b ++ a ++ d ++ 0x04#7 ++ 1#1 : Word).toNat = some (.imad x b a d)) ∧
  (∀ (s : State) (c : Ctx) (x b a d : Reg), s.ctx = some c →
    let srcs : List Src := [.v a.toNat 1 false .none, .v b.toNat 1 false .none, .v x.toNat 1 false .none]
    (c.ready { srcs := srcs, dsts := [.v d.toNat 1] } = true → ∃ t, exec (.imad x b a d) s = .next t ∧
      c.Completes s t { v := [c.vk d.toNat] } c.past ∧ ∀ l, c.Lane l → c.HoldsV t d.toNat l
        (BitVec.ofNat 32 ((c.v a.toNat .none l).toNat * (c.v b.toNat .none l).toNat + (c.v x.toNat .none l).toNat))) ∧
    (c.vOk a.toNat = true → c.vOk b.toNat = true → c.vOk x.toNat = true → c.vOk d.toNat = true → (srcs.any fun y => c.emptyLanes y != 0) = true →
      exec (.imad x b a d) s = .next s)) ∧
  ∀ a b c : Word, (BitVec.ofInt 32 (a.toInt * b.toInt + c.toInt) : Word) = BitVec.ofNat 32 (a.toNat * b.toNat + c.toNat)

/-- R112, R113, R117 to R119: the integer results in the integers' own terms: high halves of exact products, order, clamping, counts, reversal,
rotation, arithmetic shifts by any count, and fields. -/
def Obligations.IntegerResultsAreExact : Prop :=
  ∀ a b ctl : Word,
    (iMulhS a b).toInt = a.toInt * b.toInt / 2 ^ 32 ∧ (iMulhN a b).toNat = a.toNat * b.toNat / 2 ^ 32 ∧
    (mulwS a b).toInt = a.toInt * b.toInt ∧ (mulwN a b).toNat = a.toNat * b.toNat ∧
    (iMinS a b).toInt = min a.toInt b.toInt ∧ (iMaxS a b).toInt = max a.toInt b.toInt ∧
    (iMinN a b).toNat = min a.toNat b.toNat ∧ (iMaxN a b).toNat = max a.toNat b.toNat ∧
    (a ≠ 0x80000000 → (iAbs a).toInt = a.toInt.natAbs) ∧ iAbs 0x80000000 = 0x80000000 ∧
    (iAddS a b).toInt = max (-2 ^ 31) (min (2 ^ 31 - 1) (a.toInt + b.toInt)) ∧
    (iSubS a b).toInt = max (-2 ^ 31) (min (2 ^ 31 - 1) (a.toInt - b.toInt)) ∧
    (iAddN a b).toNat = min (2 ^ 32 - 1) (a.toNat + b.toNat) ∧ (iSubN a b).toNat = a.toNat - b.toNat ∧
    (popc a).toNat = ((List.range 32).filter a.getLsbD).length ∧
    (∀ n ≤ 32, (clz a).toNat = n ↔ (∀ i, 32 - n ≤ i → a.getLsbD i = false) ∧ (n < 32 → a.getLsbD (31 - n) = true)) ∧
    (∀ i < 32, (brev a).getLsbD i = a.getLsbD (31 - i) ∧ (rol a b).getLsbD ((i + b.toNat) % 32) = a.getLsbD i ∧
      (sar a b.toNat).getLsbD i = a.getLsbD (min 31 (i + b.toNat)) ∧ (shl a b.toNat).getLsbD i = (decide (b.toNat ≤ i) && a.getLsbD (i - b.toNat)) ∧
      (shr a b.toNat).getLsbD i = a.getLsbD (i + b.toNat)) ∧
    let p := (ctl.extractLsb' 0 5).toNat
    let w := min (ctl.extractLsb' 8 6).toNat (32 - p)
    ∀ i < 32, (bfi a b ctl).getLsbD i = (if p ≤ i ∧ i < p + w then a.getLsbD (i - p) else b.getLsbD i) ∧
      (bfeN a ctl).getLsbD i = (decide (i < w) && a.getLsbD (p + i)) ∧
      (bfeS a ctl).getLsbD i = (decide (0 < w) && a.getLsbD (p + min i (w - 1)))

/-- R129 to R131, R137, R138, R140: the rounding of the floating-point operations: each mode picks the neighbour it names, a tie goes to the even one;
an operation on a NaN, and an invalid one, gives the canonical NaN; an exact sum is exact, and a product has one rounding. -/
def Obligations.FloatResultsAreRoundedOnce : Prop :=
  (∀ (rm m n : Nat) (neg : Bool), let x := roundShift rm neg m n
    (x = m / 2 ^ n ∨ x = m / 2 ^ n + 1) ∧ (m % 2 ^ n = 0 → x * 2 ^ n = m) ∧
    (rm = 0 → 2 * (x * 2 ^ n - m) ≤ 2 ^ n ∧ 2 * (m - x * 2 ^ n) ≤ 2 ^ n ∧ (2 * (m % 2 ^ n) = 2 ^ n → x % 2 = 0)) ∧
    (rm = 1 → x * 2 ^ n ≤ m) ∧ (rm = 2 → if neg then x * 2 ^ n ≤ m else m ≤ x * 2 ^ n) ∧ (rm = 3 → if neg then m ≤ x * 2 ^ n else x * 2 ^ n ≤ m)) ∧
  (∀ f ∈ [f32, f16, bf16], ∀ rm a b c : Nat,
    (f.val a = .nan ∨ f.val b = .nan → f.add rm a b = f.nan ∧ f.mul rm a b = f.nan ∧ f.div rm a b = f.nan ∧ f.fma rm a b c = f.nan ∧
      f.fma rm c a b = f.nan) ∧
    (∀ s m e, f.val a = .inf s → f.val b = .inf (!s) → f.add rm a b = f.nan ∧ f.div rm a b = f.nan ∧
      (f.val c = .fin m 0 e → f.mul rm a c = f.nan ∧ f.mul rm c a = f.nan)) ∧
    (∀ s t e k, f.val a = .fin s 0 e → f.val b = .fin t 0 k → f.div rm a b = f.nan) ∧
    (∀ s t m e k, f.val a = .fin s m e → m ≠ 0 → f.val b = .fin t 0 k → f.div rm a b = f.signed (s != t) f.inf) ∧
    f.val f.nan = .nan) ∧
  (∀ (a b : Word) (s t : Bool) (m n : Nat) (e k : Int), f32.val a.toNat = .fin s m e → f32.val b.toNat = .fin t n k → m * n ≠ 0 →
    ∀ rm, f32.mul rm a.toNat b.toNat = f32.round rm (s != t) (m * n) (e + k)) ∧
  ∀ (rm : Nat) (neg : Bool) (m : Nat) (x : Nat) (e : Int), 0 < m → f32.val x = .fin neg m e → x < 2 ^ 32 → f32.round rm neg m e = x

/-! ### Statements of several parts -/

/-- R81, R82, R107, R112 to R114, R117 to R120, R122, R137 to R145: the lane instructions of two, one and three sources, on pairs, with immediates,
and the short forms. Of what it says, the model's choice, not the spec's: log 21. -/
def Obligations.LaneInstructionResults : Prop := Says.TwoSourceLaneResults ∧ Says.OneSourceLaneResults ∧ Says.ThreeSourceLaneResults ∧ Says.PairResults ∧ Says.ImmediateLaneResults ∧ Says.ShortFormResults

/-- R56, R115, R124, R125, R141, R149: what sets predicates, and the uniform forms. -/
def Obligations.PredicateAndUniformResults : Prop := Says.PredicateResults ∧ Says.UniformResults

/-- R38, R127, R146, R147, R151, R152, R154: the instructions that read other lanes, the folds, and the quantising ones. Of what it says, the model's
choice, not the spec's: log 24, 67. -/
def Obligations.CrossLaneResults : Prop := Says.CrossLaneReadResults ∧ Says.LaneFoldResults ∧ Says.QuantResults

/-- R37, R58, R59, R92, R213: bytes that stand for no instruction trap, and what keeps an instruction from executing traps or waits. Of what it says,
the model's choice, not the spec's: log 91. -/
def Obligations.IllegalAndUnreadyInstructions : Prop := Says.UnassignedEncodingTraps ∧ Says.UnreadyInstructionsTrapOrWait

/-- R21, R67, R92, R161: the trap instructions enter their handlers, and a privileged instruction in a mode too low takes cause 33. -/
def Obligations.TrapAndPrivilegedInstructions : Prop := Says.TrapInstructionsEnterHandlers ∧ Says.PrivilegedInstructionsTrap

/-- R32 to R34, R36, R155 to R157, R159, R160, R164, R354, R362: branches, calls and indirect jumps, JOIN, YIELD and IFENCE, spilled stacks, and EXIT.
Of what it says, the model's choice, not the spec's: log 7, 16, 28. -/
def Obligations.ControlTransfersAndExits : Prop := Says.BranchesMoveLanes ∧ Says.CallsAndIndirectJumps ∧ Says.JoinYieldAndInstructionFence ∧ Says.FullStackSpillsItsOldestEntry ∧ Says.ExitEndsOrResumesTheSplit

/-- R57, R67 to R70, R391: reads and writes of the control registers. Of what it says, the model's choice, not the spec's: log 18. -/
def Obligations.ControlRegisters : Prop := Says.ControlRegisterReads ∧ Says.ControlRegisterWrites ∧ Says.ControlRegisterChecks

/-- R205 to R207, R215, R221, R222, R226, R227, R236, R237, R241, R259: loads, stores, lines and atomics of the scratchpad. Of what it says, the
model's choice, not the spec's: log 13, 26, 91. -/
def Obligations.ScratchpadAccesses : Prop := Says.ScratchpadLoadsStoresAndLines ∧ Says.ScratchpadAtomics

/-- R167, R181 to R187: the capability instructions that write a c register, and those that read one. Of what it says, the model's choice, not the
spec's: log 12, 57. -/
def Obligations.CapabilityInstructions : Prop := Says.CapabilityWrites ∧ Says.CapabilityReads ∧ Says.CapabilityDerivations

/-- R41, R248, R250 to R252: BAR.ARV, BAR.WAIT and BAR.SYNC. Of what it says, the model's choice, not the spec's: log 14 (the counts wrap), 52. -/
def Obligations.BarrierInstructions : Prop := Says.BarrierArrivals ∧ Says.BarrierWaits ∧ Says.BarrierSynchronises

/-- R41, R59, R201, R236, R241, R243, R248, R251, R252: phases and those who wait for them, BAR.EXP and the fences. Of what it says, the model's
choice, not the spec's: log 14 (the counts wrap), 15, 52, 74. -/
def Obligations.BarrierPhasesAndFences : Prop := Says.BarrierPhaseRules ∧ Says.PhaseCompletionWakesWaiters ∧ Says.BarrierExpectationsAndFences

/-- R305, R307 to R311, R313, R314, R316, R317: engine commands start, move sectors, complete and fail. Of what it says, the model's choice, not the
spec's: log 7, 32, 61, 72. -/
def Obligations.EngineCommands : Prop := Says.EngineCommandsStart ∧ Says.EngineCommandsMoveSectors

/-- R36, R41, R42, R51, R57, R59, R160, R174, R201, R252, R288, R302, R321, R328, R332, R354, R355, R357, R365, R372: holds and waits end, waiting
traps are taken, and block halts stop gangs. Of what it says, the model's choice, not the spec's: log 1 (the issue stands on the agenda), 7, 35, 55,
73. -/
def Obligations.SplitStepsOfTheDevice : Prop := Says.HoldsAndWaitsEnd ∧ Says.ResultsThatWaitReturn ∧ Says.WaitingTrapsAndBlockHalts

/-- R29, R30, R248, R318, R321, R322, R324 to R326, R333: the dispatcher checks the head record, placement starts a block, a finished block leaves its
launch, and a trigger starts a run. Of what it says, the model's choice, not the spec's: log 7, 33, 34, 59, 104, 111. -/
def Obligations.DispatchPlacementAndCompletion : Prop := Says.DispatchChecksTheHeadRecord ∧ Says.PlacementStartsABlock ∧ Says.BlocksCompleteAndGraphRunsStart

/-- R45 to R48, R50, R335, R369, R370, R373: gangs leave and come back, and partitions take turns. Of what it says, the model's choice, not the
spec's: log 7, 10, 34, 35, 100, 112. -/
def Obligations.EvictionsAndTurns : Prop := Says.EvictionAndReinstatement ∧ Says.SlicesEndAndTurnsPass

/-- R339, R340, R343 to R346, R348: messages are queued, arrive in order, and start their handlers. Of what it says, the model's choice, not the
spec's: log 33, 36, 52. -/
def Obligations.MessagesAndHandlers : Prop := Says.MessagesAreQueued ∧ Says.MessagesArriveInOrder ∧ Says.HandlersSpawnWithTheirMessage

/-- R16, R211, R213, R335, R395 to R397, R400 to R402: power and damper windows, energy accounts, signed readings and the background read. Of what it
says, the model's choice, not the spec's: log 7, 47, 51, 98, 112. -/
def Obligations.PowerAndEnergy : Prop := Says.PowerStepsAndDamperWindows ∧ Says.EnergyIsAccountedWhole ∧ Says.SignedReadingsAndBackgroundReads

/-- R193, R200, R381, R382, R384 to R388: reconfiguration lists apply whole or not at all, and sweeps clear stale tags. Of what it says, the model's
choice, not the spec's: log 7, 10, 62, 71, 101. -/
def Obligations.ListsAndSweeps : Prop := Says.ListsApplyWholeOrNotAtAll ∧ Says.SweepsClearStaleTags

/-- R202 to R204, R319, R380, R403, R404, R406, R408: snoops and translations, and the host's accesses to memory and registers. Of what it says, the
model's choice, not the spec's: log 7, 43, 44, 45, 46, 66, 79, 113. -/
def Obligations.HostWindowAndRegisters : Prop := Says.HostWindowTranslations ∧ Says.HostAccessesAndRegisters

/-- R129, R132, R213, R261 to R263, R265 to R267: what the matrix engine computes, and the reading of tiles and updating of banks. Of what it says,
the model's choice, not the spec's: log 91. -/
def Obligations.MatrixEngineReadsAndUpdates : Prop := Says.MatrixElementsComputed ∧ Says.MatrixEngineReadsAndUpdates

end
end

