-- ==== Sys2Proof/Laws/Stores.lean ====
section
/-! SUPPORT. Stores, memory and masks: what each operation reads back as, and that each keeps the canonical form. -/

namespace Sys2Proof.Machine

variable {α : Type}

/-! ### Reads -/

theorem look_set (m : List (Nat × α)) (k j : Nat) (v : α) : look (set m k v) j = if j = k then some v else look m j := by
  induction m with
  | nil => simp only [set, look]; split <;> rename_i h <;> simp [eq_comm] at h ⊢ <;> simp [h]
  | cons e r ih =>
    obtain ⟨i, x⟩ := e
    simp only [set]
    split
    · simp only [look]; split <;> rename_i h <;> simp [eq_comm] at h ⊢ <;> simp [h]
    · split
      · rename_i h; subst h
        simp only [look]; split <;> rename_i h <;> simp [eq_comm] at h ⊢ <;> simp [h]
      · simp only [look, ih]
        split
        · subst_vars; rw [if_neg (by simpa [eq_comm] using ‹¬_›)]
        · rfl

@[simp] theorem look_set_same (m : List (Nat × α)) (k : Nat) (v : α) : look (set m k v) k = some v := by simp [look_set]

theorem look_set_other (m : List (Nat × α)) {k j : Nat} (v : α) (h : j ≠ k) : look (set m k v) j = look m j := by
  simp [look_set, h]

theorem look_del (m : List (Nat × α)) (k j : Nat) : look (del m k) j = if j = k then none else look m j := by
  induction m with
  | nil => simp [del, look]
  | cons e r ih =>
    obtain ⟨i, x⟩ := e
    simp only [del]
    split
    · subst_vars; rw [ih]; split
      · rfl
      · rw [look, if_neg (by simpa [eq_comm] using ‹¬_›)]
    · simp only [look, ih]
      split
      · subst_vars; rw [if_neg (by simpa [eq_comm] using ‹¬_›)]
      · rfl

theorem lookD_set (d : α) (m : List (Nat × α)) (k j : Nat) (v : α) : lookD d (set m k v) j = if j = k then v else lookD d m j := by
  simp only [lookD, look_set]; split <;> rfl

theorem lookD_del (d : α) (m : List (Nat × α)) (k j : Nat) : lookD d (del m k) j = if j = k then d else lookD d m j := by
  simp only [lookD, look_del]; split <;> rfl

theorem lookD_put [DecidableEq α] (d : α) (m : List (Nat × α)) (k j : Nat) (v : α) :
    lookD d (put d m k v) j = if j = k then v else lookD d m j := by
  unfold put; split
  · subst_vars; exact lookD_del ..
  · exact lookD_set ..

@[simp] theorem lookD_put_same [DecidableEq α] (d : α) (m : List (Nat × α)) (k : Nat) (v : α) : lookD d (put d m k v) k = v := by
  simp [lookD_put]

theorem look_modify (m : List (Nat × α)) (k j : Nat) (f : α → α) :
    look (modify m k f) j = if j = k then (look m k).map f else look m j := by
  unfold modify; split
  · rename_i x h; rw [look_set, h]; rfl
  · rename_i h; split
    · subst_vars; simp [h]
    · rfl

/-! ### The canonical form -/

/-- Every key of a store lies above a bound. -/
def above (m : List (Nat × α)) (b : Nat) : Prop := ∀ e ∈ m, b < e.1

theorem rising_cons (k : Nat) (x : α) (m : List (Nat × α)) : rising ((k, x) :: m) = true ↔ above m k ∧ rising m = true := by
  induction m generalizing k x with
  | nil => simp [rising, above]
  | cons e r ih =>
    obtain ⟨j, y⟩ := e
    simp only [rising, Bool.and_eq_true, decide_eq_true_eq, above, List.mem_cons, forall_eq_or_imp] at *
    constructor
    · rintro ⟨h, hr⟩
      exact ⟨⟨h, fun e he => Nat.lt_trans h ((ih j y).1 hr |>.1 e he)⟩, hr⟩
    · rintro ⟨⟨h, -⟩, hr⟩; exact ⟨h, hr⟩

theorem above_set {m : List (Nat × α)} {k b : Nat} {v : α} (h : above m b) (hb : b < k) : above (set m k v) b := by
  induction m with
  | nil => simpa [set, above] using hb
  | cons e r ih =>
    obtain ⟨j, x⟩ := e
    have hr : above r b := fun e he => h e (List.mem_cons_of_mem _ he)
    have hj : b < j := h (j, x) List.mem_cons_self
    simp only [set]
    split
    · intro e he
      rcases List.mem_cons.1 he with rfl | he
      · exact hb
      · exact h e he
    · split
      · intro e he
        rcases List.mem_cons.1 he with rfl | he
        · exact hb
        · exact hr e he
      · intro e he
        rcases List.mem_cons.1 he with rfl | he
        · exact hj
        · exact ih hr e he

theorem above_del {m : List (Nat × α)} {b : Nat} (k : Nat) (h : above m b) : above (del m k) b := by
  induction m with
  | nil => exact h
  | cons e r ih =>
    obtain ⟨j, x⟩ := e
    have hr : above r b := fun e he => h e (List.mem_cons_of_mem _ he)
    have hj : b < j := h (j, x) List.mem_cons_self
    simp only [del]
    split
    · exact ih hr
    · intro e he
      rcases List.mem_cons.1 he with rfl | he
      · exact hj
      · exact ih hr e he

theorem rising_set {m : List (Nat × α)} (k : Nat) (v : α) (h : rising m = true) : rising (set m k v) = true := by
  induction m with
  | nil => rfl
  | cons e r ih =>
    obtain ⟨j, x⟩ := e
    have hc := (rising_cons j x r).1 h
    simp only [set]
    split
    · rename_i hk
      refine (rising_cons ..).2 ⟨?_, h⟩
      intro e he
      rcases List.mem_cons.1 he with rfl | he
      · exact hk
      · exact Nat.lt_trans hk (hc.1 e he)
    · split
      · subst_vars; exact (rising_cons ..).2 hc
      · refine (rising_cons ..).2 ⟨above_set hc.1 (by omega), ih hc.2⟩

theorem rising_del {m : List (Nat × α)} (k : Nat) (h : rising m = true) : rising (del m k) = true := by
  induction m with
  | nil => rfl
  | cons e r ih =>
    obtain ⟨j, x⟩ := e
    have hc := (rising_cons j x r).1 h
    simp only [del]
    split
    · exact ih hc.2
    · exact (rising_cons ..).2 ⟨above_del k hc.1, ih hc.2⟩

theorem mem_set {m : List (Nat × α)} {k : Nat} {v : α} {e : Nat × α} (h : e ∈ set m k v) : e = (k, v) ∨ e ∈ m := by
  induction m with
  | nil => simpa [set] using h
  | cons f r ih =>
    obtain ⟨j, x⟩ := f
    simp only [set] at h
    split at h
    · simpa using h
    · split at h
      · rcases List.mem_cons.1 h with h | h
        · exact .inl h
        · exact .inr (List.mem_cons_of_mem _ h)
      · rcases List.mem_cons.1 h with h | h
        · exact .inr (h ▸ List.mem_cons_self)
        · exact (ih h).imp id (List.mem_cons_of_mem _)

theorem mem_del {m : List (Nat × α)} {k : Nat} {e : Nat × α} (h : e ∈ del m k) : e ∈ m := by
  induction m with
  | nil => exact h
  | cons f r ih =>
    obtain ⟨j, x⟩ := f
    simp only [del] at h
    split at h
    · exact List.mem_cons_of_mem _ (ih h)
    · rcases List.mem_cons.1 h with h | h
      · exact h ▸ List.mem_cons_self
      · exact List.mem_cons_of_mem _ (ih h)

theorem canonical_put [DecidableEq α] (d : α) {m : List (Nat × α)} (k : Nat) (v : α) (h : canonical d m = true) :
    canonical d (put d m k v) = true := by
  simp only [canonical, Bool.and_eq_true, List.all_eq_true, decide_eq_true_eq] at *
  unfold put
  split
  · exact ⟨rising_del k h.1, fun e he => h.2 e (mem_del he)⟩
  · refine ⟨rising_set k v h.1, fun e he => ?_⟩
    rcases mem_set he with rfl | he
    · assumption
    · exact h.2 e he

/-! ### Memory -/

theorem lookD_writeTo (m : List Host.Cell) (a x : Nat) (bs : List Byte) :
    lookD 0 (writeTo m a bs) x = if a ≤ x ∧ x < a + bs.length then bs.getD (x - a) 0 else lookD 0 m x := by
  induction bs generalizing m a with
  | nil => rw [writeTo, if_neg (by simp only [List.length_nil]; omega)]
  | cons b r ih =>
    rw [writeTo, ih, lookD_put]
    simp only [List.length_cons]
    by_cases hx : x = a
    · subst hx; rw [if_neg (by omega), if_pos rfl, if_pos (by omega)]; simp
    · by_cases h : a + 1 ≤ x ∧ x < a + 1 + r.length
      · rw [if_pos h, if_pos (by omega), show x - a = (x - (a + 1)) + 1 by omega, List.getD_cons_succ]
      · rw [if_neg h, if_neg hx, if_neg (by omega)]

theorem canonical_writeTo {m : List Host.Cell} (a : Nat) (bs : List Byte) (h : Memory.wf m) : Memory.wf (writeTo m a bs) := by
  induction bs generalizing m a with
  | nil => exact h
  | cons b r ih => exact ih (a + 1) (canonical_put 0 a b h)

@[simp] theorem length_readFrom (m : List Host.Cell) (a n : Nat) : (readFrom m a n).length = n := by
  induction n generalizing a with
  | zero => rfl
  | succ n ih => simp [readFrom, ih]

theorem getD_readFrom (m : List Host.Cell) (a n i : Nat) (h : i < n) : (readFrom m a n).getD i 0 = lookD 0 m (a + i) := by
  induction n generalizing a i with
  | zero => omega
  | succ n ih =>
    cases i with
    | zero => rfl
    | succ i => rw [readFrom, List.getD_cons_succ, ih _ _ (by omega)]; congr 1; omega

/-- Bytes outside a write read as before. -/
theorem readFrom_writeTo_of_disjoint (m : List Host.Cell) (a b n : Nat) (bs : List Byte) (h : b + n ≤ a ∨ a + bs.length ≤ b) :
    readFrom (writeTo m a bs) b n = readFrom m b n := by
  induction n generalizing b with
  | zero => rfl
  | succ n ih => rw [readFrom, readFrom, lookD_writeTo, if_neg (by omega), ih _ (by omega)]

/-- A write is read back. -/
theorem readFrom_writeTo_same (m : List Host.Cell) (a : Nat) (bs : List Byte) : readFrom (writeTo m a bs) a bs.length = bs := by
  apply List.ext_getElem (by simp)
  intro i h _
  have hi : i < bs.length := by simpa using h
  have := getD_readFrom (writeTo m a bs) a bs.length i hi
  rw [lookD_writeTo, if_pos (by omega), show a + i - a = i by omega] at this
  simpa [List.getD_eq_getElem?_getD, List.getElem?_eq_getElem h, List.getElem?_eq_getElem hi] using this

/-! ### Masks -/

@[simp] theorem getLsbD_bit (l i : Nat) (h : i < 32) : (bit l).getLsbD i = decide (i = l) := by
  simp only [bit, BitVec.getLsbD_shiftLeft, h, decide_true, Bool.true_and, BitVec.getLsbD_one]
  by_cases h1 : i < l <;> simp [h1] <;> omega

theorem getLsbD_and_not_bit (m : Mask) (l i : Nat) (h : i < 32) : (m &&& ~~~bit l).getLsbD i = (m.getLsbD i && !decide (i = l)) := by
  rw [BitVec.getLsbD_and, BitVec.getLsbD_not, getLsbD_bit _ _ h, decide_eq_true h, Bool.true_and]

theorem getLsbD_foldl_bit (ls : List Nat) (m : Mask) (i : Nat) (h : i < 32) :
    (ls.foldl (fun m l => m ||| bit l) m).getLsbD i = (m.getLsbD i || ls.contains i) := by
  induction ls generalizing m with
  | nil => simp
  | cons l r ih => rw [List.foldl_cons, ih, BitVec.getLsbD_or, getLsbD_bit _ _ h, List.contains_cons, Bool.or_assoc, show (i == l) = decide (i = l) from rfl]

@[simp] theorem getLsbD_maskOf (p : Nat → Bool) (i : Nat) (h : i < 32) : (maskOf p).getLsbD i = p i := by
  rw [maskOf, getLsbD_foldl_bit _ _ _ h]
  cases hp : p i <;> simp [hp, h]

@[simp] theorem mem_lanesOf (m : Mask) (i : Nat) : i ∈ lanesOf m ↔ i < 32 ∧ m.getLsbD i = true := by simp [lanesOf]

theorem mask_ext {m n : Mask} (h : ∀ i < 32, m.getLsbD i = n.getLsbD i) : m = n := BitVec.eq_of_getLsbD_eq h

end Sys2Proof.Machine
end

