-- ==== Sys2Proof/Laws/State.lean ====
section
/-! SUPPORT. What each named update of State leaves in each field, and the reads after it. -/

namespace Sys2Proof.Machine.State

variable (s : State) (n m : Nat)

/-! ### setCore -/

@[simp] theorem setCore_clk (x : Core) : (s.setCore n x).clk = s.clk := rfl
@[simp] theorem setCore_clkStep (x : Core) : (s.setCore n x).clkStep = s.clkStep := rfl
@[simp] theorem setCore_coolWins (x : Core) : (s.setCore n x).coolWins = s.coolWins := rfl
@[simp] theorem setCore_health (x : Core) : (s.setCore n x).health = s.health := rfl
@[simp] theorem setCore_confidential (x : Core) : (s.setCore n x).confidential = s.confidential := rfl
@[simp] theorem setCore_htvec (x : Core) : (s.setCore n x).htvec = s.htvec := rfl
@[simp] theorem setCore_hypRecord (x : Core) : (s.setCore n x).hypRecord = s.hypRecord := rfl
@[simp] theorem setCore_hypHash (x : Core) : (s.setCore n x).hypHash = s.hypHash := rfl
@[simp] theorem setCore_hypSet (x : Core) : (s.setCore n x).hypSet = s.hypSet := rfl
@[simp] theorem setCore_sweepPass (x : Core) : (s.setCore n x).sweepPass = s.sweepPass := rfl
@[simp] theorem setCore_sweep (x : Core) : (s.setCore n x).sweep = s.sweep := rfl
@[simp] theorem setCore_sweepAsked (x : Core) : (s.setCore n x).sweepAsked = s.sweepAsked := rfl
@[simp] theorem setCore_retired (x : Core) : (s.setCore n x).retired = s.retired := rfl
@[simp] theorem setCore_freed (x : Core) : (s.setCore n x).freed = s.freed := rfl
@[simp] theorem setCore_mem (x : Core) : (s.setCore n x).mem = s.mem := rfl
@[simp] theorem setCore_tags (x : Core) : (s.setCore n x).tags = s.tags := rfl
@[simp] theorem setCore_poison (x : Core) : (s.setCore n x).poison = s.poison := rfl
@[simp] theorem setCore_wordBad (x : Core) : (s.setCore n x).wordBad = s.wordBad := rfl
@[simp] theorem setCore_hostMem (x : Core) : (s.setCore n x).hostMem = s.hostMem := rfl
@[simp] theorem setCore_extents (x : Core) : (s.setCore n x).extents = s.extents := rfl
@[simp] theorem setCore_geometry (x : Core) : (s.setCore n x).geometry = s.geometry := rfl
@[simp] theorem setCore_changing (x : Core) : (s.setCore n x).changing = s.changing := rfl
@[simp] theorem setCore_slices (x : Core) : (s.setCore n x).slices = s.slices := rfl
@[simp] theorem setCore_raised (x : Core) : (s.setCore n x).raised = s.raised := rfl
@[simp] theorem setCore_xlate (x : Core) : (s.setCore n x).xlate = s.xlate := rfl
@[simp] theorem setCore_atsOut (x : Core) : (s.setCore n x).atsOut = s.atsOut := rfl
@[simp] theorem setCore_pageReqs (x : Core) : (s.setCore n x).pageReqs = s.pageReqs := rfl
@[simp] theorem setCore_pageWaits (x : Core) : (s.setCore n x).pageWaits = s.pageWaits := rfl
@[simp] theorem setCore_linkUp (x : Core) : (s.setCore n x).linkUp = s.linkUp := rfl
@[simp] theorem setCore_reqs (x : Core) : (s.setCore n x).reqs = s.reqs := rfl
@[simp] theorem setCore_shapes (x : Core) : (s.setCore n x).shapes = s.shapes := rfl
@[simp] theorem setCore_parts (x : Core) : (s.setCore n x).parts = s.parts := rfl
@[simp] theorem setCore_contexts (x : Core) : (s.setCore n x).contexts = s.contexts := rfl
@[simp] theorem setCore_keySlots (x : Core) : (s.setCore n x).keySlots = s.keySlots := rfl
@[simp] theorem setCore_allowList (x : Core) : (s.setCore n x).allowList = s.allowList := rfl
@[simp] theorem setCore_audit (x : Core) : (s.setCore n x).audit = s.audit := rfl
@[simp] theorem setCore_auditCount (x : Core) : (s.setCore n x).auditCount = s.auditCount := rfl
@[simp] theorem setCore_nv (x : Core) : (s.setCore n x).nv = s.nv := rfl
@[simp] theorem setCore_channels (x : Core) : (s.setCore n x).channels = s.channels := rfl
@[simp] theorem setCore_cmdQueue (x : Core) : (s.setCore n x).cmdQueue = s.cmdQueue := rfl
@[simp] theorem setCore_graphs (x : Core) : (s.setCore n x).graphs = s.graphs := rfl
@[simp] theorem setCore_launches (x : Core) : (s.setCore n x).launches = s.launches := rfl
@[simp] theorem setCore_cores (x : Core) : (s.setCore n x).cores = put Core.reset s.cores n x := rfl
@[simp] theorem setCore_blocks (x : Core) : (s.setCore n x).blocks = s.blocks := rfl
@[simp] theorem setCore_groups (x : Core) : (s.setCore n x).groups = s.groups := rfl
@[simp] theorem setCore_gangs (x : Core) : (s.setCore n x).gangs = s.gangs := rfl
@[simp] theorem setCore_matrix (x : Core) : (s.setCore n x).matrix = s.matrix := rfl
@[simp] theorem setCore_tileOps (x : Core) : (s.setCore n x).tileOps = s.tileOps := rfl
@[simp] theorem setCore_drains (x : Core) : (s.setCore n x).drains = s.drains := rfl
@[simp] theorem setCore_engines (x : Core) : (s.setCore n x).engines = s.engines := rfl
@[simp] theorem setCore_flue (x : Core) : (s.setCore n x).flue = s.flue := rfl
@[simp] theorem setCore_flueRr (x : Core) : (s.setCore n x).flueRr = s.flueRr := rfl
@[simp] theorem setCore_flueOps (x : Core) : (s.setCore n x).flueOps = s.flueOps := rfl
@[simp] theorem setCore_fluePassed (x : Core) : (s.setCore n x).fluePassed = s.fluePassed := rfl
@[simp] theorem setCore_overflow (x : Core) : (s.setCore n x).overflow = s.overflow := rfl
@[simp] theorem setCore_mailbox (x : Core) : (s.setCore n x).mailbox = s.mailbox := rfl
@[simp] theorem setCore_events (x : Core) : (s.setCore n x).events = s.events := rfl
@[simp] theorem setCore_hostAnswer (x : Core) : (s.setCore n x).hostAnswer = s.hostAnswer := rfl
@[simp] theorem setCore_energy (x : Core) : (s.setCore n x).energy = s.energy := rfl
@[simp] theorem setCore_tally (x : Core) : (s.setCore n x).tally = s.tally := rfl
@[simp] theorem setCore_energyClk (x : Core) : (s.setCore n x).energyClk = s.energyClk := rfl
@[simp] theorem setCore_soft (x : Core) : (s.setCore n x).soft = s.soft := rfl
@[simp] theorem setCore_ports (x : Core) : (s.setCore n x).ports = s.ports := rfl
@[simp] theorem setCore_coreRecs (x : Core) : (s.setCore n x).coreRecs = s.coreRecs := rfl
@[simp] theorem setCore_evictRecs (x : Core) : (s.setCore n x).evictRecs = s.evictRecs := rfl
@[simp] theorem setCore_cur (x : Core) : (s.setCore n x).cur = s.cur := rfl
@[simp] theorem setCore_agenda (x : Core) : (s.setCore n x).agenda = s.agenda := rfl
@[simp] theorem setCore_fresh (x : Core) : (s.setCore n x).fresh = s.fresh := rfl
@[simp] theorem setCore_nextId (x : Core) : (s.setCore n x).nextId = s.nextId := rfl
@[simp] theorem setCore_tried (x : Core) : (s.setCore n x).tried = s.tried := rfl
@[simp] theorem setCore_picks (x : Core) : (s.setCore n x).picks = s.picks := rfl
@[simp] theorem setCore_urgent (x : Core) : (s.setCore n x).urgent = s.urgent := rfl

/-! ### setGang -/

@[simp] theorem setGang_clk (x : Gang) : (s.setGang n x).clk = s.clk := rfl
@[simp] theorem setGang_clkStep (x : Gang) : (s.setGang n x).clkStep = s.clkStep := rfl
@[simp] theorem setGang_coolWins (x : Gang) : (s.setGang n x).coolWins = s.coolWins := rfl
@[simp] theorem setGang_health (x : Gang) : (s.setGang n x).health = s.health := rfl
@[simp] theorem setGang_confidential (x : Gang) : (s.setGang n x).confidential = s.confidential := rfl
@[simp] theorem setGang_htvec (x : Gang) : (s.setGang n x).htvec = s.htvec := rfl
@[simp] theorem setGang_hypRecord (x : Gang) : (s.setGang n x).hypRecord = s.hypRecord := rfl
@[simp] theorem setGang_hypHash (x : Gang) : (s.setGang n x).hypHash = s.hypHash := rfl
@[simp] theorem setGang_hypSet (x : Gang) : (s.setGang n x).hypSet = s.hypSet := rfl
@[simp] theorem setGang_sweepPass (x : Gang) : (s.setGang n x).sweepPass = s.sweepPass := rfl
@[simp] theorem setGang_sweep (x : Gang) : (s.setGang n x).sweep = s.sweep := rfl
@[simp] theorem setGang_sweepAsked (x : Gang) : (s.setGang n x).sweepAsked = s.sweepAsked := rfl
@[simp] theorem setGang_retired (x : Gang) : (s.setGang n x).retired = s.retired := rfl
@[simp] theorem setGang_freed (x : Gang) : (s.setGang n x).freed = s.freed := rfl
@[simp] theorem setGang_mem (x : Gang) : (s.setGang n x).mem = s.mem := rfl
@[simp] theorem setGang_tags (x : Gang) : (s.setGang n x).tags = s.tags := rfl
@[simp] theorem setGang_poison (x : Gang) : (s.setGang n x).poison = s.poison := rfl
@[simp] theorem setGang_wordBad (x : Gang) : (s.setGang n x).wordBad = s.wordBad := rfl
@[simp] theorem setGang_hostMem (x : Gang) : (s.setGang n x).hostMem = s.hostMem := rfl
@[simp] theorem setGang_extents (x : Gang) : (s.setGang n x).extents = s.extents := rfl
@[simp] theorem setGang_geometry (x : Gang) : (s.setGang n x).geometry = s.geometry := rfl
@[simp] theorem setGang_changing (x : Gang) : (s.setGang n x).changing = s.changing := rfl
@[simp] theorem setGang_slices (x : Gang) : (s.setGang n x).slices = s.slices := rfl
@[simp] theorem setGang_raised (x : Gang) : (s.setGang n x).raised = s.raised := rfl
@[simp] theorem setGang_xlate (x : Gang) : (s.setGang n x).xlate = s.xlate := rfl
@[simp] theorem setGang_atsOut (x : Gang) : (s.setGang n x).atsOut = s.atsOut := rfl
@[simp] theorem setGang_pageReqs (x : Gang) : (s.setGang n x).pageReqs = s.pageReqs := rfl
@[simp] theorem setGang_pageWaits (x : Gang) : (s.setGang n x).pageWaits = s.pageWaits := rfl
@[simp] theorem setGang_linkUp (x : Gang) : (s.setGang n x).linkUp = s.linkUp := rfl
@[simp] theorem setGang_reqs (x : Gang) : (s.setGang n x).reqs = s.reqs := rfl
@[simp] theorem setGang_shapes (x : Gang) : (s.setGang n x).shapes = s.shapes := rfl
@[simp] theorem setGang_parts (x : Gang) : (s.setGang n x).parts = s.parts := rfl
@[simp] theorem setGang_contexts (x : Gang) : (s.setGang n x).contexts = s.contexts := rfl
@[simp] theorem setGang_keySlots (x : Gang) : (s.setGang n x).keySlots = s.keySlots := rfl
@[simp] theorem setGang_allowList (x : Gang) : (s.setGang n x).allowList = s.allowList := rfl
@[simp] theorem setGang_audit (x : Gang) : (s.setGang n x).audit = s.audit := rfl
@[simp] theorem setGang_auditCount (x : Gang) : (s.setGang n x).auditCount = s.auditCount := rfl
@[simp] theorem setGang_nv (x : Gang) : (s.setGang n x).nv = s.nv := rfl
@[simp] theorem setGang_channels (x : Gang) : (s.setGang n x).channels = s.channels := rfl
@[simp] theorem setGang_cmdQueue (x : Gang) : (s.setGang n x).cmdQueue = s.cmdQueue := rfl
@[simp] theorem setGang_graphs (x : Gang) : (s.setGang n x).graphs = s.graphs := rfl
@[simp] theorem setGang_launches (x : Gang) : (s.setGang n x).launches = s.launches := rfl
@[simp] theorem setGang_cores (x : Gang) : (s.setGang n x).cores = s.cores := rfl
@[simp] theorem setGang_blocks (x : Gang) : (s.setGang n x).blocks = s.blocks := rfl
@[simp] theorem setGang_groups (x : Gang) : (s.setGang n x).groups = s.groups := rfl
@[simp] theorem setGang_gangs (x : Gang) : (s.setGang n x).gangs = set s.gangs n x := rfl
@[simp] theorem setGang_matrix (x : Gang) : (s.setGang n x).matrix = s.matrix := rfl
@[simp] theorem setGang_tileOps (x : Gang) : (s.setGang n x).tileOps = s.tileOps := rfl
@[simp] theorem setGang_drains (x : Gang) : (s.setGang n x).drains = s.drains := rfl
@[simp] theorem setGang_engines (x : Gang) : (s.setGang n x).engines = s.engines := rfl
@[simp] theorem setGang_flue (x : Gang) : (s.setGang n x).flue = s.flue := rfl
@[simp] theorem setGang_flueRr (x : Gang) : (s.setGang n x).flueRr = s.flueRr := rfl
@[simp] theorem setGang_flueOps (x : Gang) : (s.setGang n x).flueOps = s.flueOps := rfl
@[simp] theorem setGang_fluePassed (x : Gang) : (s.setGang n x).fluePassed = s.fluePassed := rfl
@[simp] theorem setGang_overflow (x : Gang) : (s.setGang n x).overflow = s.overflow := rfl
@[simp] theorem setGang_mailbox (x : Gang) : (s.setGang n x).mailbox = s.mailbox := rfl
@[simp] theorem setGang_events (x : Gang) : (s.setGang n x).events = s.events := rfl
@[simp] theorem setGang_hostAnswer (x : Gang) : (s.setGang n x).hostAnswer = s.hostAnswer := rfl
@[simp] theorem setGang_energy (x : Gang) : (s.setGang n x).energy = s.energy := rfl
@[simp] theorem setGang_tally (x : Gang) : (s.setGang n x).tally = s.tally := rfl
@[simp] theorem setGang_energyClk (x : Gang) : (s.setGang n x).energyClk = s.energyClk := rfl
@[simp] theorem setGang_soft (x : Gang) : (s.setGang n x).soft = s.soft := rfl
@[simp] theorem setGang_ports (x : Gang) : (s.setGang n x).ports = s.ports := rfl
@[simp] theorem setGang_coreRecs (x : Gang) : (s.setGang n x).coreRecs = s.coreRecs := rfl
@[simp] theorem setGang_evictRecs (x : Gang) : (s.setGang n x).evictRecs = s.evictRecs := rfl
@[simp] theorem setGang_cur (x : Gang) : (s.setGang n x).cur = s.cur := rfl
@[simp] theorem setGang_agenda (x : Gang) : (s.setGang n x).agenda = s.agenda := rfl
@[simp] theorem setGang_fresh (x : Gang) : (s.setGang n x).fresh = s.fresh := rfl
@[simp] theorem setGang_nextId (x : Gang) : (s.setGang n x).nextId = s.nextId := rfl
@[simp] theorem setGang_tried (x : Gang) : (s.setGang n x).tried = s.tried := rfl
@[simp] theorem setGang_picks (x : Gang) : (s.setGang n x).picks = s.picks := rfl
@[simp] theorem setGang_urgent (x : Gang) : (s.setGang n x).urgent = s.urgent := rfl

/-! ### setBlock -/

@[simp] theorem setBlock_clk (x : Block) : (s.setBlock n x).clk = s.clk := rfl
@[simp] theorem setBlock_clkStep (x : Block) : (s.setBlock n x).clkStep = s.clkStep := rfl
@[simp] theorem setBlock_coolWins (x : Block) : (s.setBlock n x).coolWins = s.coolWins := rfl
@[simp] theorem setBlock_health (x : Block) : (s.setBlock n x).health = s.health := rfl
@[simp] theorem setBlock_confidential (x : Block) : (s.setBlock n x).confidential = s.confidential := rfl
@[simp] theorem setBlock_htvec (x : Block) : (s.setBlock n x).htvec = s.htvec := rfl
@[simp] theorem setBlock_hypRecord (x : Block) : (s.setBlock n x).hypRecord = s.hypRecord := rfl
@[simp] theorem setBlock_hypHash (x : Block) : (s.setBlock n x).hypHash = s.hypHash := rfl
@[simp] theorem setBlock_hypSet (x : Block) : (s.setBlock n x).hypSet = s.hypSet := rfl
@[simp] theorem setBlock_sweepPass (x : Block) : (s.setBlock n x).sweepPass = s.sweepPass := rfl
@[simp] theorem setBlock_sweep (x : Block) : (s.setBlock n x).sweep = s.sweep := rfl
@[simp] theorem setBlock_sweepAsked (x : Block) : (s.setBlock n x).sweepAsked = s.sweepAsked := rfl
@[simp] theorem setBlock_retired (x : Block) : (s.setBlock n x).retired = s.retired := rfl
@[simp] theorem setBlock_freed (x : Block) : (s.setBlock n x).freed = s.freed := rfl
@[simp] theorem setBlock_mem (x : Block) : (s.setBlock n x).mem = s.mem := rfl
@[simp] theorem setBlock_tags (x : Block) : (s.setBlock n x).tags = s.tags := rfl
@[simp] theorem setBlock_poison (x : Block) : (s.setBlock n x).poison = s.poison := rfl
@[simp] theorem setBlock_wordBad (x : Block) : (s.setBlock n x).wordBad = s.wordBad := rfl
@[simp] theorem setBlock_hostMem (x : Block) : (s.setBlock n x).hostMem = s.hostMem := rfl
@[simp] theorem setBlock_extents (x : Block) : (s.setBlock n x).extents = s.extents := rfl
@[simp] theorem setBlock_geometry (x : Block) : (s.setBlock n x).geometry = s.geometry := rfl
@[simp] theorem setBlock_changing (x : Block) : (s.setBlock n x).changing = s.changing := rfl
@[simp] theorem setBlock_slices (x : Block) : (s.setBlock n x).slices = s.slices := rfl
@[simp] theorem setBlock_raised (x : Block) : (s.setBlock n x).raised = s.raised := rfl
@[simp] theorem setBlock_xlate (x : Block) : (s.setBlock n x).xlate = s.xlate := rfl
@[simp] theorem setBlock_atsOut (x : Block) : (s.setBlock n x).atsOut = s.atsOut := rfl
@[simp] theorem setBlock_pageReqs (x : Block) : (s.setBlock n x).pageReqs = s.pageReqs := rfl
@[simp] theorem setBlock_pageWaits (x : Block) : (s.setBlock n x).pageWaits = s.pageWaits := rfl
@[simp] theorem setBlock_linkUp (x : Block) : (s.setBlock n x).linkUp = s.linkUp := rfl
@[simp] theorem setBlock_reqs (x : Block) : (s.setBlock n x).reqs = s.reqs := rfl
@[simp] theorem setBlock_shapes (x : Block) : (s.setBlock n x).shapes = s.shapes := rfl
@[simp] theorem setBlock_parts (x : Block) : (s.setBlock n x).parts = s.parts := rfl
@[simp] theorem setBlock_contexts (x : Block) : (s.setBlock n x).contexts = s.contexts := rfl
@[simp] theorem setBlock_keySlots (x : Block) : (s.setBlock n x).keySlots = s.keySlots := rfl
@[simp] theorem setBlock_allowList (x : Block) : (s.setBlock n x).allowList = s.allowList := rfl
@[simp] theorem setBlock_audit (x : Block) : (s.setBlock n x).audit = s.audit := rfl
@[simp] theorem setBlock_auditCount (x : Block) : (s.setBlock n x).auditCount = s.auditCount := rfl
@[simp] theorem setBlock_nv (x : Block) : (s.setBlock n x).nv = s.nv := rfl
@[simp] theorem setBlock_channels (x : Block) : (s.setBlock n x).channels = s.channels := rfl
@[simp] theorem setBlock_cmdQueue (x : Block) : (s.setBlock n x).cmdQueue = s.cmdQueue := rfl
@[simp] theorem setBlock_graphs (x : Block) : (s.setBlock n x).graphs = s.graphs := rfl
@[simp] theorem setBlock_launches (x : Block) : (s.setBlock n x).launches = s.launches := rfl
@[simp] theorem setBlock_cores (x : Block) : (s.setBlock n x).cores = s.cores := rfl
@[simp] theorem setBlock_blocks (x : Block) : (s.setBlock n x).blocks = set s.blocks n x := rfl
@[simp] theorem setBlock_groups (x : Block) : (s.setBlock n x).groups = s.groups := rfl
@[simp] theorem setBlock_gangs (x : Block) : (s.setBlock n x).gangs = s.gangs := rfl
@[simp] theorem setBlock_matrix (x : Block) : (s.setBlock n x).matrix = s.matrix := rfl
@[simp] theorem setBlock_tileOps (x : Block) : (s.setBlock n x).tileOps = s.tileOps := rfl
@[simp] theorem setBlock_drains (x : Block) : (s.setBlock n x).drains = s.drains := rfl
@[simp] theorem setBlock_engines (x : Block) : (s.setBlock n x).engines = s.engines := rfl
@[simp] theorem setBlock_flue (x : Block) : (s.setBlock n x).flue = s.flue := rfl
@[simp] theorem setBlock_flueRr (x : Block) : (s.setBlock n x).flueRr = s.flueRr := rfl
@[simp] theorem setBlock_flueOps (x : Block) : (s.setBlock n x).flueOps = s.flueOps := rfl
@[simp] theorem setBlock_fluePassed (x : Block) : (s.setBlock n x).fluePassed = s.fluePassed := rfl
@[simp] theorem setBlock_overflow (x : Block) : (s.setBlock n x).overflow = s.overflow := rfl
@[simp] theorem setBlock_mailbox (x : Block) : (s.setBlock n x).mailbox = s.mailbox := rfl
@[simp] theorem setBlock_events (x : Block) : (s.setBlock n x).events = s.events := rfl
@[simp] theorem setBlock_hostAnswer (x : Block) : (s.setBlock n x).hostAnswer = s.hostAnswer := rfl
@[simp] theorem setBlock_energy (x : Block) : (s.setBlock n x).energy = s.energy := rfl
@[simp] theorem setBlock_tally (x : Block) : (s.setBlock n x).tally = s.tally := rfl
@[simp] theorem setBlock_energyClk (x : Block) : (s.setBlock n x).energyClk = s.energyClk := rfl
@[simp] theorem setBlock_soft (x : Block) : (s.setBlock n x).soft = s.soft := rfl
@[simp] theorem setBlock_ports (x : Block) : (s.setBlock n x).ports = s.ports := rfl
@[simp] theorem setBlock_coreRecs (x : Block) : (s.setBlock n x).coreRecs = s.coreRecs := rfl
@[simp] theorem setBlock_evictRecs (x : Block) : (s.setBlock n x).evictRecs = s.evictRecs := rfl
@[simp] theorem setBlock_cur (x : Block) : (s.setBlock n x).cur = s.cur := rfl
@[simp] theorem setBlock_agenda (x : Block) : (s.setBlock n x).agenda = s.agenda := rfl
@[simp] theorem setBlock_fresh (x : Block) : (s.setBlock n x).fresh = s.fresh := rfl
@[simp] theorem setBlock_nextId (x : Block) : (s.setBlock n x).nextId = s.nextId := rfl
@[simp] theorem setBlock_tried (x : Block) : (s.setBlock n x).tried = s.tried := rfl
@[simp] theorem setBlock_picks (x : Block) : (s.setBlock n x).picks = s.picks := rfl
@[simp] theorem setBlock_urgent (x : Block) : (s.setBlock n x).urgent = s.urgent := rfl

/-! ### setPart -/

@[simp] theorem setPart_clk (x : Part) : (s.setPart n x).clk = s.clk := rfl
@[simp] theorem setPart_clkStep (x : Part) : (s.setPart n x).clkStep = s.clkStep := rfl
@[simp] theorem setPart_coolWins (x : Part) : (s.setPart n x).coolWins = s.coolWins := rfl
@[simp] theorem setPart_health (x : Part) : (s.setPart n x).health = s.health := rfl
@[simp] theorem setPart_confidential (x : Part) : (s.setPart n x).confidential = s.confidential := rfl
@[simp] theorem setPart_htvec (x : Part) : (s.setPart n x).htvec = s.htvec := rfl
@[simp] theorem setPart_hypRecord (x : Part) : (s.setPart n x).hypRecord = s.hypRecord := rfl
@[simp] theorem setPart_hypHash (x : Part) : (s.setPart n x).hypHash = s.hypHash := rfl
@[simp] theorem setPart_hypSet (x : Part) : (s.setPart n x).hypSet = s.hypSet := rfl
@[simp] theorem setPart_sweepPass (x : Part) : (s.setPart n x).sweepPass = s.sweepPass := rfl
@[simp] theorem setPart_sweep (x : Part) : (s.setPart n x).sweep = s.sweep := rfl
@[simp] theorem setPart_sweepAsked (x : Part) : (s.setPart n x).sweepAsked = s.sweepAsked := rfl
@[simp] theorem setPart_retired (x : Part) : (s.setPart n x).retired = s.retired := rfl
@[simp] theorem setPart_freed (x : Part) : (s.setPart n x).freed = s.freed := rfl
@[simp] theorem setPart_mem (x : Part) : (s.setPart n x).mem = s.mem := rfl
@[simp] theorem setPart_tags (x : Part) : (s.setPart n x).tags = s.tags := rfl
@[simp] theorem setPart_poison (x : Part) : (s.setPart n x).poison = s.poison := rfl
@[simp] theorem setPart_wordBad (x : Part) : (s.setPart n x).wordBad = s.wordBad := rfl
@[simp] theorem setPart_hostMem (x : Part) : (s.setPart n x).hostMem = s.hostMem := rfl
@[simp] theorem setPart_extents (x : Part) : (s.setPart n x).extents = s.extents := rfl
@[simp] theorem setPart_geometry (x : Part) : (s.setPart n x).geometry = s.geometry := rfl
@[simp] theorem setPart_changing (x : Part) : (s.setPart n x).changing = s.changing := rfl
@[simp] theorem setPart_slices (x : Part) : (s.setPart n x).slices = s.slices := rfl
@[simp] theorem setPart_raised (x : Part) : (s.setPart n x).raised = s.raised := rfl
@[simp] theorem setPart_xlate (x : Part) : (s.setPart n x).xlate = s.xlate := rfl
@[simp] theorem setPart_atsOut (x : Part) : (s.setPart n x).atsOut = s.atsOut := rfl
@[simp] theorem setPart_pageReqs (x : Part) : (s.setPart n x).pageReqs = s.pageReqs := rfl
@[simp] theorem setPart_pageWaits (x : Part) : (s.setPart n x).pageWaits = s.pageWaits := rfl
@[simp] theorem setPart_linkUp (x : Part) : (s.setPart n x).linkUp = s.linkUp := rfl
@[simp] theorem setPart_reqs (x : Part) : (s.setPart n x).reqs = s.reqs := rfl
@[simp] theorem setPart_shapes (x : Part) : (s.setPart n x).shapes = s.shapes := rfl
@[simp] theorem setPart_parts (x : Part) : (s.setPart n x).parts = set s.parts n x := rfl
@[simp] theorem setPart_contexts (x : Part) : (s.setPart n x).contexts = s.contexts := rfl
@[simp] theorem setPart_keySlots (x : Part) : (s.setPart n x).keySlots = s.keySlots := rfl
@[simp] theorem setPart_allowList (x : Part) : (s.setPart n x).allowList = s.allowList := rfl
@[simp] theorem setPart_audit (x : Part) : (s.setPart n x).audit = s.audit := rfl
@[simp] theorem setPart_auditCount (x : Part) : (s.setPart n x).auditCount = s.auditCount := rfl
@[simp] theorem setPart_nv (x : Part) : (s.setPart n x).nv = s.nv := rfl
@[simp] theorem setPart_channels (x : Part) : (s.setPart n x).channels = s.channels := rfl
@[simp] theorem setPart_cmdQueue (x : Part) : (s.setPart n x).cmdQueue = s.cmdQueue := rfl
@[simp] theorem setPart_graphs (x : Part) : (s.setPart n x).graphs = s.graphs := rfl
@[simp] theorem setPart_launches (x : Part) : (s.setPart n x).launches = s.launches := rfl
@[simp] theorem setPart_cores (x : Part) : (s.setPart n x).cores = s.cores := rfl
@[simp] theorem setPart_blocks (x : Part) : (s.setPart n x).blocks = s.blocks := rfl
@[simp] theorem setPart_groups (x : Part) : (s.setPart n x).groups = s.groups := rfl
@[simp] theorem setPart_gangs (x : Part) : (s.setPart n x).gangs = s.gangs := rfl
@[simp] theorem setPart_matrix (x : Part) : (s.setPart n x).matrix = s.matrix := rfl
@[simp] theorem setPart_tileOps (x : Part) : (s.setPart n x).tileOps = s.tileOps := rfl
@[simp] theorem setPart_drains (x : Part) : (s.setPart n x).drains = s.drains := rfl
@[simp] theorem setPart_engines (x : Part) : (s.setPart n x).engines = s.engines := rfl
@[simp] theorem setPart_flue (x : Part) : (s.setPart n x).flue = s.flue := rfl
@[simp] theorem setPart_flueRr (x : Part) : (s.setPart n x).flueRr = s.flueRr := rfl
@[simp] theorem setPart_flueOps (x : Part) : (s.setPart n x).flueOps = s.flueOps := rfl
@[simp] theorem setPart_fluePassed (x : Part) : (s.setPart n x).fluePassed = s.fluePassed := rfl
@[simp] theorem setPart_overflow (x : Part) : (s.setPart n x).overflow = s.overflow := rfl
@[simp] theorem setPart_mailbox (x : Part) : (s.setPart n x).mailbox = s.mailbox := rfl
@[simp] theorem setPart_events (x : Part) : (s.setPart n x).events = s.events := rfl
@[simp] theorem setPart_hostAnswer (x : Part) : (s.setPart n x).hostAnswer = s.hostAnswer := rfl
@[simp] theorem setPart_energy (x : Part) : (s.setPart n x).energy = s.energy := rfl
@[simp] theorem setPart_tally (x : Part) : (s.setPart n x).tally = s.tally := rfl
@[simp] theorem setPart_energyClk (x : Part) : (s.setPart n x).energyClk = s.energyClk := rfl
@[simp] theorem setPart_soft (x : Part) : (s.setPart n x).soft = s.soft := rfl
@[simp] theorem setPart_ports (x : Part) : (s.setPart n x).ports = s.ports := rfl
@[simp] theorem setPart_coreRecs (x : Part) : (s.setPart n x).coreRecs = s.coreRecs := rfl
@[simp] theorem setPart_evictRecs (x : Part) : (s.setPart n x).evictRecs = s.evictRecs := rfl
@[simp] theorem setPart_cur (x : Part) : (s.setPart n x).cur = s.cur := rfl
@[simp] theorem setPart_agenda (x : Part) : (s.setPart n x).agenda = s.agenda := rfl
@[simp] theorem setPart_fresh (x : Part) : (s.setPart n x).fresh = s.fresh := rfl
@[simp] theorem setPart_nextId (x : Part) : (s.setPart n x).nextId = s.nextId := rfl
@[simp] theorem setPart_tried (x : Part) : (s.setPart n x).tried = s.tried := rfl
@[simp] theorem setPart_picks (x : Part) : (s.setPart n x).picks = s.picks := rfl
@[simp] theorem setPart_urgent (x : Part) : (s.setPart n x).urgent = s.urgent := rfl

/-! ### setContext -/

@[simp] theorem setContext_clk (x : Context) : (s.setContext n x).clk = s.clk := rfl
@[simp] theorem setContext_clkStep (x : Context) : (s.setContext n x).clkStep = s.clkStep := rfl
@[simp] theorem setContext_coolWins (x : Context) : (s.setContext n x).coolWins = s.coolWins := rfl
@[simp] theorem setContext_health (x : Context) : (s.setContext n x).health = s.health := rfl
@[simp] theorem setContext_confidential (x : Context) : (s.setContext n x).confidential = s.confidential := rfl
@[simp] theorem setContext_htvec (x : Context) : (s.setContext n x).htvec = s.htvec := rfl
@[simp] theorem setContext_hypRecord (x : Context) : (s.setContext n x).hypRecord = s.hypRecord := rfl
@[simp] theorem setContext_hypHash (x : Context) : (s.setContext n x).hypHash = s.hypHash := rfl
@[simp] theorem setContext_hypSet (x : Context) : (s.setContext n x).hypSet = s.hypSet := rfl
@[simp] theorem setContext_sweepPass (x : Context) : (s.setContext n x).sweepPass = s.sweepPass := rfl
@[simp] theorem setContext_sweep (x : Context) : (s.setContext n x).sweep = s.sweep := rfl
@[simp] theorem setContext_sweepAsked (x : Context) : (s.setContext n x).sweepAsked = s.sweepAsked := rfl
@[simp] theorem setContext_retired (x : Context) : (s.setContext n x).retired = s.retired := rfl
@[simp] theorem setContext_freed (x : Context) : (s.setContext n x).freed = s.freed := rfl
@[simp] theorem setContext_mem (x : Context) : (s.setContext n x).mem = s.mem := rfl
@[simp] theorem setContext_tags (x : Context) : (s.setContext n x).tags = s.tags := rfl
@[simp] theorem setContext_poison (x : Context) : (s.setContext n x).poison = s.poison := rfl
@[simp] theorem setContext_wordBad (x : Context) : (s.setContext n x).wordBad = s.wordBad := rfl
@[simp] theorem setContext_hostMem (x : Context) : (s.setContext n x).hostMem = s.hostMem := rfl
@[simp] theorem setContext_extents (x : Context) : (s.setContext n x).extents = s.extents := rfl
@[simp] theorem setContext_geometry (x : Context) : (s.setContext n x).geometry = s.geometry := rfl
@[simp] theorem setContext_changing (x : Context) : (s.setContext n x).changing = s.changing := rfl
@[simp] theorem setContext_slices (x : Context) : (s.setContext n x).slices = s.slices := rfl
@[simp] theorem setContext_raised (x : Context) : (s.setContext n x).raised = s.raised := rfl
@[simp] theorem setContext_xlate (x : Context) : (s.setContext n x).xlate = s.xlate := rfl
@[simp] theorem setContext_atsOut (x : Context) : (s.setContext n x).atsOut = s.atsOut := rfl
@[simp] theorem setContext_pageReqs (x : Context) : (s.setContext n x).pageReqs = s.pageReqs := rfl
@[simp] theorem setContext_pageWaits (x : Context) : (s.setContext n x).pageWaits = s.pageWaits := rfl
@[simp] theorem setContext_linkUp (x : Context) : (s.setContext n x).linkUp = s.linkUp := rfl
@[simp] theorem setContext_reqs (x : Context) : (s.setContext n x).reqs = s.reqs := rfl
@[simp] theorem setContext_shapes (x : Context) : (s.setContext n x).shapes = s.shapes := rfl
@[simp] theorem setContext_parts (x : Context) : (s.setContext n x).parts = s.parts := rfl
@[simp] theorem setContext_contexts (x : Context) : (s.setContext n x).contexts = put Context.none s.contexts n x := rfl
@[simp] theorem setContext_keySlots (x : Context) : (s.setContext n x).keySlots = s.keySlots := rfl
@[simp] theorem setContext_allowList (x : Context) : (s.setContext n x).allowList = s.allowList := rfl
@[simp] theorem setContext_audit (x : Context) : (s.setContext n x).audit = s.audit := rfl
@[simp] theorem setContext_auditCount (x : Context) : (s.setContext n x).auditCount = s.auditCount := rfl
@[simp] theorem setContext_nv (x : Context) : (s.setContext n x).nv = s.nv := rfl
@[simp] theorem setContext_channels (x : Context) : (s.setContext n x).channels = s.channels := rfl
@[simp] theorem setContext_cmdQueue (x : Context) : (s.setContext n x).cmdQueue = s.cmdQueue := rfl
@[simp] theorem setContext_graphs (x : Context) : (s.setContext n x).graphs = s.graphs := rfl
@[simp] theorem setContext_launches (x : Context) : (s.setContext n x).launches = s.launches := rfl
@[simp] theorem setContext_cores (x : Context) : (s.setContext n x).cores = s.cores := rfl
@[simp] theorem setContext_blocks (x : Context) : (s.setContext n x).blocks = s.blocks := rfl
@[simp] theorem setContext_groups (x : Context) : (s.setContext n x).groups = s.groups := rfl
@[simp] theorem setContext_gangs (x : Context) : (s.setContext n x).gangs = s.gangs := rfl
@[simp] theorem setContext_matrix (x : Context) : (s.setContext n x).matrix = s.matrix := rfl
@[simp] theorem setContext_tileOps (x : Context) : (s.setContext n x).tileOps = s.tileOps := rfl
@[simp] theorem setContext_drains (x : Context) : (s.setContext n x).drains = s.drains := rfl
@[simp] theorem setContext_engines (x : Context) : (s.setContext n x).engines = s.engines := rfl
@[simp] theorem setContext_flue (x : Context) : (s.setContext n x).flue = s.flue := rfl
@[simp] theorem setContext_flueRr (x : Context) : (s.setContext n x).flueRr = s.flueRr := rfl
@[simp] theorem setContext_flueOps (x : Context) : (s.setContext n x).flueOps = s.flueOps := rfl
@[simp] theorem setContext_fluePassed (x : Context) : (s.setContext n x).fluePassed = s.fluePassed := rfl
@[simp] theorem setContext_overflow (x : Context) : (s.setContext n x).overflow = s.overflow := rfl
@[simp] theorem setContext_mailbox (x : Context) : (s.setContext n x).mailbox = s.mailbox := rfl
@[simp] theorem setContext_events (x : Context) : (s.setContext n x).events = s.events := rfl
@[simp] theorem setContext_hostAnswer (x : Context) : (s.setContext n x).hostAnswer = s.hostAnswer := rfl
@[simp] theorem setContext_energy (x : Context) : (s.setContext n x).energy = s.energy := rfl
@[simp] theorem setContext_tally (x : Context) : (s.setContext n x).tally = s.tally := rfl
@[simp] theorem setContext_energyClk (x : Context) : (s.setContext n x).energyClk = s.energyClk := rfl
@[simp] theorem setContext_soft (x : Context) : (s.setContext n x).soft = s.soft := rfl
@[simp] theorem setContext_ports (x : Context) : (s.setContext n x).ports = s.ports := rfl
@[simp] theorem setContext_coreRecs (x : Context) : (s.setContext n x).coreRecs = s.coreRecs := rfl
@[simp] theorem setContext_evictRecs (x : Context) : (s.setContext n x).evictRecs = s.evictRecs := rfl
@[simp] theorem setContext_cur (x : Context) : (s.setContext n x).cur = s.cur := rfl
@[simp] theorem setContext_agenda (x : Context) : (s.setContext n x).agenda = s.agenda := rfl
@[simp] theorem setContext_fresh (x : Context) : (s.setContext n x).fresh = s.fresh := rfl
@[simp] theorem setContext_nextId (x : Context) : (s.setContext n x).nextId = s.nextId := rfl
@[simp] theorem setContext_tried (x : Context) : (s.setContext n x).tried = s.tried := rfl
@[simp] theorem setContext_picks (x : Context) : (s.setContext n x).picks = s.picks := rfl
@[simp] theorem setContext_urgent (x : Context) : (s.setContext n x).urgent = s.urgent := rfl

/-! ### setSlot -/

@[simp] theorem setSlot_clk (x : Slot) : (s.setSlot n x).clk = s.clk := rfl
@[simp] theorem setSlot_clkStep (x : Slot) : (s.setSlot n x).clkStep = s.clkStep := rfl
@[simp] theorem setSlot_coolWins (x : Slot) : (s.setSlot n x).coolWins = s.coolWins := rfl
@[simp] theorem setSlot_health (x : Slot) : (s.setSlot n x).health = s.health := rfl
@[simp] theorem setSlot_confidential (x : Slot) : (s.setSlot n x).confidential = s.confidential := rfl
@[simp] theorem setSlot_htvec (x : Slot) : (s.setSlot n x).htvec = s.htvec := rfl
@[simp] theorem setSlot_hypRecord (x : Slot) : (s.setSlot n x).hypRecord = s.hypRecord := rfl
@[simp] theorem setSlot_hypHash (x : Slot) : (s.setSlot n x).hypHash = s.hypHash := rfl
@[simp] theorem setSlot_hypSet (x : Slot) : (s.setSlot n x).hypSet = s.hypSet := rfl
@[simp] theorem setSlot_sweepPass (x : Slot) : (s.setSlot n x).sweepPass = s.sweepPass := rfl
@[simp] theorem setSlot_sweep (x : Slot) : (s.setSlot n x).sweep = s.sweep := rfl
@[simp] theorem setSlot_sweepAsked (x : Slot) : (s.setSlot n x).sweepAsked = s.sweepAsked := rfl
@[simp] theorem setSlot_retired (x : Slot) : (s.setSlot n x).retired = s.retired := rfl
@[simp] theorem setSlot_freed (x : Slot) : (s.setSlot n x).freed = s.freed := rfl
@[simp] theorem setSlot_mem (x : Slot) : (s.setSlot n x).mem = s.mem := rfl
@[simp] theorem setSlot_tags (x : Slot) : (s.setSlot n x).tags = s.tags := rfl
@[simp] theorem setSlot_poison (x : Slot) : (s.setSlot n x).poison = s.poison := rfl
@[simp] theorem setSlot_wordBad (x : Slot) : (s.setSlot n x).wordBad = s.wordBad := rfl
@[simp] theorem setSlot_hostMem (x : Slot) : (s.setSlot n x).hostMem = s.hostMem := rfl
@[simp] theorem setSlot_extents (x : Slot) : (s.setSlot n x).extents = s.extents := rfl
@[simp] theorem setSlot_geometry (x : Slot) : (s.setSlot n x).geometry = s.geometry := rfl
@[simp] theorem setSlot_changing (x : Slot) : (s.setSlot n x).changing = s.changing := rfl
@[simp] theorem setSlot_slices (x : Slot) : (s.setSlot n x).slices = s.slices := rfl
@[simp] theorem setSlot_raised (x : Slot) : (s.setSlot n x).raised = s.raised := rfl
@[simp] theorem setSlot_xlate (x : Slot) : (s.setSlot n x).xlate = s.xlate := rfl
@[simp] theorem setSlot_atsOut (x : Slot) : (s.setSlot n x).atsOut = s.atsOut := rfl
@[simp] theorem setSlot_pageReqs (x : Slot) : (s.setSlot n x).pageReqs = s.pageReqs := rfl
@[simp] theorem setSlot_pageWaits (x : Slot) : (s.setSlot n x).pageWaits = s.pageWaits := rfl
@[simp] theorem setSlot_linkUp (x : Slot) : (s.setSlot n x).linkUp = s.linkUp := rfl
@[simp] theorem setSlot_reqs (x : Slot) : (s.setSlot n x).reqs = s.reqs := rfl
@[simp] theorem setSlot_shapes (x : Slot) : (s.setSlot n x).shapes = s.shapes := rfl
@[simp] theorem setSlot_parts (x : Slot) : (s.setSlot n x).parts = s.parts := rfl
@[simp] theorem setSlot_contexts (x : Slot) : (s.setSlot n x).contexts = s.contexts := rfl
@[simp] theorem setSlot_keySlots (x : Slot) : (s.setSlot n x).keySlots = s.keySlots := rfl
@[simp] theorem setSlot_allowList (x : Slot) : (s.setSlot n x).allowList = s.allowList := rfl
@[simp] theorem setSlot_audit (x : Slot) : (s.setSlot n x).audit = s.audit := rfl
@[simp] theorem setSlot_auditCount (x : Slot) : (s.setSlot n x).auditCount = s.auditCount := rfl
@[simp] theorem setSlot_nv (x : Slot) : (s.setSlot n x).nv = s.nv := rfl
@[simp] theorem setSlot_channels (x : Slot) : (s.setSlot n x).channels = s.channels := rfl
@[simp] theorem setSlot_cmdQueue (x : Slot) : (s.setSlot n x).cmdQueue = s.cmdQueue := rfl
@[simp] theorem setSlot_graphs (x : Slot) : (s.setSlot n x).graphs = s.graphs := rfl
@[simp] theorem setSlot_launches (x : Slot) : (s.setSlot n x).launches = s.launches := rfl
@[simp] theorem setSlot_cores (x : Slot) : (s.setSlot n x).cores = s.cores := rfl
@[simp] theorem setSlot_blocks (x : Slot) : (s.setSlot n x).blocks = s.blocks := rfl
@[simp] theorem setSlot_groups (x : Slot) : (s.setSlot n x).groups = s.groups := rfl
@[simp] theorem setSlot_gangs (x : Slot) : (s.setSlot n x).gangs = s.gangs := rfl
@[simp] theorem setSlot_matrix (x : Slot) : (s.setSlot n x).matrix = s.matrix := rfl
@[simp] theorem setSlot_tileOps (x : Slot) : (s.setSlot n x).tileOps = s.tileOps := rfl
@[simp] theorem setSlot_drains (x : Slot) : (s.setSlot n x).drains = s.drains := rfl
@[simp] theorem setSlot_engines (x : Slot) : (s.setSlot n x).engines = s.engines := rfl
@[simp] theorem setSlot_flue (x : Slot) : (s.setSlot n x).flue = put Slot.vacant s.flue n x := rfl
@[simp] theorem setSlot_flueRr (x : Slot) : (s.setSlot n x).flueRr = s.flueRr := rfl
@[simp] theorem setSlot_flueOps (x : Slot) : (s.setSlot n x).flueOps = s.flueOps := rfl
@[simp] theorem setSlot_fluePassed (x : Slot) : (s.setSlot n x).fluePassed = s.fluePassed := rfl
@[simp] theorem setSlot_overflow (x : Slot) : (s.setSlot n x).overflow = s.overflow := rfl
@[simp] theorem setSlot_mailbox (x : Slot) : (s.setSlot n x).mailbox = s.mailbox := rfl
@[simp] theorem setSlot_events (x : Slot) : (s.setSlot n x).events = s.events := rfl
@[simp] theorem setSlot_hostAnswer (x : Slot) : (s.setSlot n x).hostAnswer = s.hostAnswer := rfl
@[simp] theorem setSlot_energy (x : Slot) : (s.setSlot n x).energy = s.energy := rfl
@[simp] theorem setSlot_tally (x : Slot) : (s.setSlot n x).tally = s.tally := rfl
@[simp] theorem setSlot_energyClk (x : Slot) : (s.setSlot n x).energyClk = s.energyClk := rfl
@[simp] theorem setSlot_soft (x : Slot) : (s.setSlot n x).soft = s.soft := rfl
@[simp] theorem setSlot_ports (x : Slot) : (s.setSlot n x).ports = s.ports := rfl
@[simp] theorem setSlot_coreRecs (x : Slot) : (s.setSlot n x).coreRecs = s.coreRecs := rfl
@[simp] theorem setSlot_evictRecs (x : Slot) : (s.setSlot n x).evictRecs = s.evictRecs := rfl
@[simp] theorem setSlot_cur (x : Slot) : (s.setSlot n x).cur = s.cur := rfl
@[simp] theorem setSlot_agenda (x : Slot) : (s.setSlot n x).agenda = s.agenda := rfl
@[simp] theorem setSlot_fresh (x : Slot) : (s.setSlot n x).fresh = s.fresh := rfl
@[simp] theorem setSlot_nextId (x : Slot) : (s.setSlot n x).nextId = s.nextId := rfl
@[simp] theorem setSlot_tried (x : Slot) : (s.setSlot n x).tried = s.tried := rfl
@[simp] theorem setSlot_picks (x : Slot) : (s.setSlot n x).picks = s.picks := rfl
@[simp] theorem setSlot_urgent (x : Slot) : (s.setSlot n x).urgent = s.urgent := rfl

/-! ### Reads -/

theorem core_setCore (x : Core) : (s.setCore n x).core m = if m = n then x else s.core m := by simp [core, lookD_put]
theorem gang_setGang (x : Gang) : (s.setGang n x).gang m = if m = n then some x else s.gang m := by simp [gang, look_set]
theorem block_setBlock (x : Block) : (s.setBlock n x).block m = if m = n then some x else s.block m := by simp [block, look_set]
theorem part_setPart (x : Part) : (s.setPart n x).part m = if m = n then some x else s.part m := by simp [part, look_set]
theorem context_setContext (x : Context) : (s.setContext n x).context m = if m = n then x else s.context m := by
  simp [context, lookD_put]
theorem slot_setSlot (x : Slot) : (s.setSlot n x).slot m = if m = n then x else s.slot m := by simp [slot, lookD_put]

@[simp] theorem core_setCore_same (x : Core) : (s.setCore n x).core n = x := by simp [core_setCore]
@[simp] theorem gang_setGang_same (x : Gang) : (s.setGang n x).gang n = some x := by simp [gang_setGang]
@[simp] theorem block_setBlock_same (x : Block) : (s.setBlock n x).block n = some x := by simp [block_setBlock]
@[simp] theorem part_setPart_same (x : Part) : (s.setPart n x).part n = some x := by simp [part_setPart]
@[simp] theorem context_setContext_same (x : Context) : (s.setContext n x).context n = x := by simp [context_setContext]
@[simp] theorem slot_setSlot_same (x : Slot) : (s.setSlot n x).slot n = x := by simp [slot_setSlot]

@[simp] theorem gang_setCore (x : Core) : (s.setCore n x).gang m = s.gang m := rfl
@[simp] theorem block_setCore (x : Core) : (s.setCore n x).block m = s.block m := rfl
@[simp] theorem part_setCore (x : Core) : (s.setCore n x).part m = s.part m := rfl
@[simp] theorem context_setCore (x : Core) : (s.setCore n x).context m = s.context m := rfl
@[simp] theorem slot_setCore (x : Core) : (s.setCore n x).slot m = s.slot m := rfl
@[simp] theorem byte_setCore (x : Core) : (s.setCore n x).byte m = s.byte m := rfl
@[simp] theorem core_setGang (x : Gang) : (s.setGang n x).core m = s.core m := rfl
@[simp] theorem block_setGang (x : Gang) : (s.setGang n x).block m = s.block m := rfl
@[simp] theorem part_setGang (x : Gang) : (s.setGang n x).part m = s.part m := rfl
@[simp] theorem context_setGang (x : Gang) : (s.setGang n x).context m = s.context m := rfl
@[simp] theorem slot_setGang (x : Gang) : (s.setGang n x).slot m = s.slot m := rfl
@[simp] theorem byte_setGang (x : Gang) : (s.setGang n x).byte m = s.byte m := rfl
@[simp] theorem core_setBlock (x : Block) : (s.setBlock n x).core m = s.core m := rfl
@[simp] theorem gang_setBlock (x : Block) : (s.setBlock n x).gang m = s.gang m := rfl
@[simp] theorem part_setBlock (x : Block) : (s.setBlock n x).part m = s.part m := rfl
@[simp] theorem context_setBlock (x : Block) : (s.setBlock n x).context m = s.context m := rfl
@[simp] theorem slot_setBlock (x : Block) : (s.setBlock n x).slot m = s.slot m := rfl
@[simp] theorem byte_setBlock (x : Block) : (s.setBlock n x).byte m = s.byte m := rfl
@[simp] theorem core_setPart (x : Part) : (s.setPart n x).core m = s.core m := rfl
@[simp] theorem gang_setPart (x : Part) : (s.setPart n x).gang m = s.gang m := rfl
@[simp] theorem block_setPart (x : Part) : (s.setPart n x).block m = s.block m := rfl
@[simp] theorem context_setPart (x : Part) : (s.setPart n x).context m = s.context m := rfl
@[simp] theorem slot_setPart (x : Part) : (s.setPart n x).slot m = s.slot m := rfl
@[simp] theorem byte_setPart (x : Part) : (s.setPart n x).byte m = s.byte m := rfl
@[simp] theorem core_setContext (x : Context) : (s.setContext n x).core m = s.core m := rfl
@[simp] theorem gang_setContext (x : Context) : (s.setContext n x).gang m = s.gang m := rfl
@[simp] theorem block_setContext (x : Context) : (s.setContext n x).block m = s.block m := rfl
@[simp] theorem part_setContext (x : Context) : (s.setContext n x).part m = s.part m := rfl
@[simp] theorem slot_setContext (x : Context) : (s.setContext n x).slot m = s.slot m := rfl
@[simp] theorem byte_setContext (x : Context) : (s.setContext n x).byte m = s.byte m := rfl
@[simp] theorem core_setSlot (x : Slot) : (s.setSlot n x).core m = s.core m := rfl
@[simp] theorem gang_setSlot (x : Slot) : (s.setSlot n x).gang m = s.gang m := rfl
@[simp] theorem block_setSlot (x : Slot) : (s.setSlot n x).block m = s.block m := rfl
@[simp] theorem part_setSlot (x : Slot) : (s.setSlot n x).part m = s.part m := rfl
@[simp] theorem context_setSlot (x : Slot) : (s.setSlot n x).context m = s.context m := rfl
@[simp] theorem byte_setSlot (x : Slot) : (s.setSlot n x).byte m = s.byte m := rfl

end Sys2Proof.Machine.State
end

