-- ==== Sys2Proof/Laws/Registers.lean ====
section
/-! SUPPORT. Registers: what each named write of a gang's registers reads back as, and that it keeps every other register. -/

namespace Sys2Proof.Machine

/-! ### Reads after writes -/

theorem Gang.vAt_setV (g : Gang) (key l : Nat) (x : Word) (key' l' : Nat) (h : l < 32) (h' : l' < 32) :
    (g.setV key l x).vAt key' l' = if key' = key ∧ l' = l then x else g.vAt key' l' := by
  simp only [setV, vAt, lookD_put]
  by_cases hk : key' * 32 + l' = key * 32 + l
  · rw [if_pos hk, if_pos (by omega)]
  · rw [if_neg hk, if_neg (by omega)]

theorem Gang.vFull_setV (g : Gang) (key l : Nat) (x : Word) (key' l' : Nat) (h' : l' < 32) :
    (g.setV key l x).vFull key' l' = if key' = key ∧ l' = l then true else g.vFull key' l' := by
  simp only [setV, vFull, lookD_put]
  by_cases hk : key' = key
  · subst hk
    simp only [if_true, getLsbD_and_not_bit _ _ _ h', true_and]
    by_cases hl : l' = l <;> simp only [hl, decide_true, decide_false, if_true, if_false, Bool.not_true, Bool.not_false, Bool.and_false,
      Bool.and_true]
  · simp only [hk, if_false, false_and]

theorem Gang.tagAt_setV (g : Gang) (key l : Nat) (x : Word) (key' l' : Nat) (h' : l' < 32) :
    (g.setV key l x).tagAt key' l' = if key' / 4 = key / 4 ∧ l' = l then false else g.tagAt key' l' := by
  simp only [setV, tagAt, lookD_put]
  by_cases hk : key' / 4 = key / 4
  · simp only [hk, if_true, getLsbD_and_not_bit _ _ _ h', true_and]
    by_cases hl : l' = l <;> simp only [hl, decide_true, decide_false, if_true, if_false, Bool.not_true, Bool.not_false, Bool.and_false,
      Bool.and_true]
  · simp only [hk, if_false, false_and]

theorem Gang.vBad_setV (g : Gang) (key l : Nat) (x : Word) (key' l' : Nat) (h' : l' < 32) :
    (lookD 0 (g.setV key l x).vBad key').getLsbD l' = if key' = key ∧ l' = l then false else (lookD 0 g.vBad key').getLsbD l' := by
  simp only [setV, lookD_put]
  by_cases hk : key' = key
  · simp only [hk, if_true, getLsbD_and_not_bit _ _ _ h', true_and]
    by_cases hl : l' = l <;> simp only [hl, decide_true, decide_false, if_true, if_false, Bool.not_true, Bool.not_false, Bool.and_false,
      Bool.and_true]
  · simp only [hk, if_false, false_and]

theorem Gang.vFull_emptyV (g : Gang) (key : Nat) (m : Mask) (key' l : Nat) :
    (g.emptyV key m).vFull key' l = if key' = key ∧ m.getLsbD l = true then false else g.vFull key' l := by
  simp only [emptyV, vFull, lookD_put]
  by_cases hk : key' = key
  · by_cases hl : m.getLsbD l = true <;> simp [hk, hl, BitVec.getLsbD_or]
  · simp [hk]

theorem Gang.vFull_refillV (g : Gang) (key l key' l' : Nat) (h' : l' < 32) :
    (g.refillV key l).vFull key' l' = if key' = key ∧ l' = l then true else g.vFull key' l' := by
  simp only [refillV, vFull, lookD_put]
  by_cases hk : key' = key
  · simp only [hk, if_true, getLsbD_and_not_bit _ _ _ h', true_and]
    by_cases hl : l' = l <;> simp only [hl, decide_true, decide_false, if_true, if_false, Bool.not_true, Bool.not_false, Bool.and_false,
      Bool.and_true]
  · simp only [hk, if_false, false_and]

theorem Gang.sAt_setS (g : Gang) (key : Nat) (x : Word) (key' : Nat) :
    (g.setS key x).sAt key' = if key' = key then x else g.sAt key' := by simp [setS, sAt, lookD_put]
theorem Gang.sFull_setS (g : Gang) (key : Nat) (x : Word) (key' : Nat) :
    (g.setS key x).sFull key' = if key' = key then true else g.sFull key' := by
  simp only [setS, sFull, lookD_put]; split <;> rfl
theorem Gang.sFull_emptyS (g : Gang) (key key' : Nat) :
    (g.emptyS key).sFull key' = if key' = key then false else g.sFull key' := by
  simp only [emptyS, sFull, lookD_put]; split <;> rfl
theorem Gang.sFull_refillS (g : Gang) (key key' : Nat) :
    (g.refillS key).sFull key' = if key' = key then true else g.sFull key' := by
  simp only [refillS, sFull, lookD_put]; split <;> rfl

theorem Gang.kAt_setK (g : Gang) (k : Nat) (m value : Mask) (k' l : Nat) (h : l < 32) :
    (g.setK k m value).kAt k' l = if k' = k ∧ k ≠ 0 ∧ m.getLsbD l = true then value.getLsbD l else g.kAt k' l := by
  unfold setK
  by_cases hk : k = 0
  · simp [hk]
  · simp only [beq_iff_eq, hk, if_false, kAt, lookD_put]
    by_cases he : k' = k
    · subst he
      simp only [if_true, BitVec.getLsbD_or, BitVec.getLsbD_and, BitVec.getLsbD_not, h, decide_true, Bool.true_and]
      cases hm : m.getLsbD l <;> simp [hk]
    · simp only [he, if_false, false_and]

/-! ### Frames: a gang keeps what a write does not name -/

theorem Gang.Kept.refl (g : Gang) (live : Mask) (w : Regs) : g.Kept g live w :=
  ⟨fun _ _ _ _ => ⟨rfl, rfl⟩, fun _ _ _ _ => rfl, fun _ _ => ⟨rfl, rfl⟩, fun _ _ _ _ => rfl, fun _ _ => rfl, fun _ _ _ _ => rfl, fun _ _ => rfl,
    fun _ _ _ _ => rfl, fun _ _ => rfl, rfl⟩

theorem Gang.Kept.trans {g h i : Gang} {live : Mask} {w : Regs} (a : g.Kept h live w) (b : h.Kept i live w) : g.Kept i live w where
  v key l hl hk := ⟨(b.v key l hl hk).1.trans (a.v key l hl hk).1, (b.v key l hl hk).2.trans (a.v key l hl hk).2⟩
  tag key l hl hk := (b.tag key l hl hk).trans (a.tag key l hl hk)
  s key hk := ⟨(b.s key hk).1.trans (a.s key hk).1, (b.s key hk).2.trans (a.s key hk).2⟩
  k key l hl hk := (b.k key l hl hk).trans (a.k key l hl hk)
  c key hk := (b.c key hk).trans (a.c key hk)
  vBad key l hl hk := (b.vBad key l hl hk).trans (a.vBad key l hl hk)
  sBad key hk := (b.sBad key hk).trans (a.sBad key hk)
  kBad key l hl hk := (b.kBad key l hl hk).trans (a.kBad key l hl hk)
  cBad key hk := (b.cBad key hk).trans (a.cBad key hk)
  rest := by rw [b.rest, a.rest]

theorem Gang.kept_setV {g : Gang} {live : Mask} {w : Regs} {key l : Nat} (x : Word) (hk : key ∈ w.v) (hl : l < 32)
    (hm : live.getLsbD l = true) : g.Kept (g.setV key l x) live w where
  v key' l' h' hn := by
    have : ¬(key' = key ∧ l' = l) := by rintro ⟨rfl, rfl⟩; simp [hn hk] at hm
    exact ⟨by rw [vAt_setV _ _ _ _ _ _ hl h', if_neg this], by rw [vFull_setV _ _ _ _ _ _ h', if_neg this]⟩
  tag key' l' h' hn := by
    have : ¬(key' / 4 = key / 4 ∧ l' = l) := by rintro ⟨h, rfl⟩; simp [hn ⟨key, hk, h.symm⟩] at hm
    rw [tagAt_setV _ _ _ _ _ _ h', if_neg this]
  s _ _ := ⟨rfl, rfl⟩
  k _ _ _ _ := rfl
  c _ _ := rfl
  vBad key' l' h' hn := by
    simp only [setV, lookD_put]
    by_cases he : key' = key
    · subst he
      have : l' ≠ l := by rintro rfl; simp [hn hk] at hm
      simp [getLsbD_and_not_bit _ _ _ h', this]
    · simp [he]
  sBad _ _ := rfl
  kBad _ _ _ _ := rfl
  cBad _ _ := rfl
  rest := rfl

theorem Gang.kept_emptyV {g : Gang} {live : Mask} {w : Regs} {key : Nat} {m : Mask} (hk : key ∈ w.v)
    (hm : ∀ l < 32, m.getLsbD l = true → live.getLsbD l = true) : g.Kept (g.emptyV key m) live w where
  v key' l h' hn := by
    refine ⟨rfl, ?_⟩
    rw [vFull_emptyV, if_neg]
    rintro ⟨rfl, h⟩
    exact absurd (hm l h' h) (by rw [hn hk]; exact Bool.false_ne_true)
  tag _ _ _ _ := rfl
  s _ _ := ⟨rfl, rfl⟩
  k _ _ _ _ := rfl
  c _ _ := rfl
  vBad _ _ _ _ := rfl
  sBad _ _ := rfl
  kBad _ _ _ _ := rfl
  cBad _ _ := rfl
  rest := rfl

theorem Gang.kept_setS {g : Gang} {live : Mask} {w : Regs} {key : Nat} (x : Word) (hk : key ∈ w.s) :
    g.Kept (g.setS key x) live w where
  v _ _ _ _ := ⟨rfl, rfl⟩
  tag _ _ _ _ := rfl
  s key' hn := by
    have : key' ≠ key := by rintro rfl; exact hn hk
    exact ⟨by rw [sAt_setS, if_neg this], by rw [sFull_setS, if_neg this]⟩
  k _ _ _ _ := rfl
  c _ _ := rfl
  vBad _ _ _ _ := rfl
  sBad key' hn := by
    have : key' ≠ key := by rintro rfl; exact hn hk
    simp [setS, lookD_put, this]
  kBad _ _ _ _ := rfl
  cBad _ _ := rfl
  rest := rfl

theorem Gang.kept_emptyS {g : Gang} {live : Mask} {w : Regs} {key : Nat} (hk : key ∈ w.s) : g.Kept (g.emptyS key) live w where
  v _ _ _ _ := ⟨rfl, rfl⟩
  tag _ _ _ _ := rfl
  s key' hn := by
    have : key' ≠ key := by rintro rfl; exact hn hk
    exact ⟨rfl, by rw [sFull_emptyS, if_neg this]⟩
  k _ _ _ _ := rfl
  c _ _ := rfl
  vBad _ _ _ _ := rfl
  sBad _ _ := rfl
  kBad _ _ _ _ := rfl
  cBad _ _ := rfl
  rest := rfl

theorem Gang.kBad_setK (g : Gang) (k : Nat) (m value : Mask) (k' l : Nat) (h : l < 32) :
    (lookD 0 (g.setK k m value).kBad k').getLsbD l =
      if k' = k ∧ k ≠ 0 ∧ m.getLsbD l = true then false else (lookD 0 g.kBad k').getLsbD l := by
  unfold setK
  by_cases hk : k = 0
  · simp [hk]
  · simp only [beq_iff_eq, hk, if_false, lookD_put]
    by_cases he : k' = k
    · subst he
      simp only [if_true, BitVec.getLsbD_and, BitVec.getLsbD_not, h, decide_true, Bool.true_and]
      cases hm : m.getLsbD l <;> simp [hk]
    · simp only [he, if_false, false_and]

theorem Gang.kept_setK {g : Gang} {live : Mask} {w : Regs} {k : Nat} (value : Mask) (hk : k ∈ w.k) :
    g.Kept (g.setK k live value) live w := by
  refine ⟨fun _ _ _ _ => ?_, fun _ _ _ _ => ?_, fun _ _ => ?_, fun k' l h' hn => ?_, fun _ _ => ?_, fun _ _ _ _ => ?_, fun _ _ => ?_,
    fun k' l h' hn => ?_, fun _ _ => ?_, ?_⟩
  case refine_4 =>
    rw [kAt_setK _ _ _ _ _ _ h', if_neg]
    rintro ⟨rfl, -, h⟩
    simp [hn hk] at h
  case refine_8 =>
    rw [kBad_setK _ _ _ _ _ _ h', if_neg]
    rintro ⟨rfl, -, h⟩
    simp [hn hk] at h
  all_goals unfold setK; split <;> first | rfl | exact ⟨rfl, rfl⟩

theorem Gang.kept_setC {g : Gang} {live : Mask} {w : Regs} {key : Nat} (x : Cap) (hk : key ∈ w.c) :
    g.Kept (g.setC key x) live w where
  v _ _ _ _ := ⟨rfl, rfl⟩
  tag _ _ _ _ := rfl
  s _ _ := ⟨rfl, rfl⟩
  k _ _ _ _ := rfl
  c key' hn := by
    have : key' ≠ key := by rintro rfl; exact hn hk
    simp [setC, lookD_put, this]
  vBad _ _ _ _ := rfl
  sBad _ _ := rfl
  kBad _ _ _ _ := rfl
  cBad key' hn := by
    have : key' ≠ key := by rintro rfl; exact hn hk
    simp [setC, lookD_put, this]
  rest := rfl

/-- A change of k and vTag aside, what a fold of kept changes keeps. -/
theorem Gang.kept_foldl {α : Type} {live : Mask} {w : Regs} (f : Gang → α → Gang) (xs : List α)
    (h : ∀ g : Gang, ∀ x ∈ xs, g.Kept (f g x) live w) (g : Gang) : g.Kept (xs.foldl f g) live w := by
  induction xs generalizing g with
  | nil => exact .refl ..
  | cons x r ih =>
    exact (h g x List.mem_cons_self).trans (ih (fun g y hy => h g y (List.mem_cons_of_mem _ hy)) _)

/-! ### A v register written in the lanes of a list -/

theorem Gang.kept_setVs {g : Gang} {live : Mask} {w : Regs} {key : Nat} {ls : List Nat} (f : Nat → Word) (hk : key ∈ w.v)
    (hl : ∀ l ∈ ls, l < 32 ∧ live.getLsbD l = true) : g.Kept (g.setVs key ls f) live w :=
  kept_foldl _ _ (fun _ x hx => kept_setV _ hk (hl x hx).1 (hl x hx).2) g

theorem Gang.vAt_setVs (g : Gang) (key : Nat) (ls : List Nat) (f : Nat → Word) (key' l : Nat) (hl : l < 32) (hls : ∀ x ∈ ls, x < 32) :
    (g.setVs key ls f).vAt key' l = if key' = key ∧ l ∈ ls then f l else g.vAt key' l := by
  induction ls generalizing g with
  | nil => simp [setVs]
  | cons x r ih =>
    have ih := ih (g.setV key x (f x)) fun y hy => hls y (List.mem_cons_of_mem _ hy)
    simp only [setVs, List.foldl_cons] at *
    rw [ih, vAt_setV _ _ _ _ _ _ (hls x List.mem_cons_self) hl]
    by_cases hk : key' = key <;> by_cases hr : l ∈ r <;> by_cases hx : l = x <;> simp_all

theorem Gang.vFull_setVs (g : Gang) (key : Nat) (ls : List Nat) (f : Nat → Word) (key' l : Nat) (hl : l < 32) :
    (g.setVs key ls f).vFull key' l = if key' = key ∧ l ∈ ls then true else g.vFull key' l := by
  induction ls generalizing g with
  | nil => simp [setVs]
  | cons x r ih =>
    have ih := ih (g.setV key x (f x))
    simp only [setVs, List.foldl_cons] at *
    rw [ih, vFull_setV _ _ _ _ _ _ hl]
    by_cases hk : key' = key <;> by_cases hr : l ∈ r <;> by_cases hx : l = x <;> simp_all

theorem Gang.tagAt_setVs (g : Gang) (key : Nat) (ls : List Nat) (f : Nat → Word) (key' l : Nat) (hl : l < 32) :
    (g.setVs key ls f).tagAt key' l = if key' / 4 = key / 4 ∧ l ∈ ls then false else g.tagAt key' l := by
  induction ls generalizing g with
  | nil => simp [setVs]
  | cons x r ih =>
    have ih := ih (g.setV key x (f x))
    simp only [setVs, List.foldl_cons] at *
    rw [ih, tagAt_setV _ _ _ _ _ _ hl]
    by_cases hk : key' / 4 = key / 4 <;> by_cases hr : l ∈ r <;> by_cases hx : l = x <;> simp_all

theorem Gang.vBad_setVs (g : Gang) (key : Nat) (ls : List Nat) (f : Nat → Word) (key' l : Nat) (hl : l < 32) :
    (lookD 0 (g.setVs key ls f).vBad key').getLsbD l = if key' = key ∧ l ∈ ls then false else (lookD 0 g.vBad key').getLsbD l := by
  induction ls generalizing g with
  | nil => simp [setVs]
  | cons x r ih =>
    have ih := ih (g.setV key x (f x))
    simp only [setVs, List.foldl_cons] at *
    rw [ih, vBad_setV _ _ _ _ _ _ hl]
    by_cases hk : key' = key <;> by_cases hr : l ∈ r <;> by_cases hx : l = x <;> simp_all

/-- What a v register written in the lanes of a list holds in one of them: the value, full, its quad's tag clear, no error (R55, R213). -/
theorem Gang.setVs_lane (g : Gang) (key : Nat) (ls : List Nat) (f : Nat → Word) (l : Nat) (hl : l ∈ ls) (hls : ∀ x ∈ ls, x < 32) :
    (g.setVs key ls f).vAt key l = f l ∧ (g.setVs key ls f).vFull key l = true ∧ (g.setVs key ls f).tagAt key l = false ∧
      (lookD 0 (g.setVs key ls f).vBad key).getLsbD l = false :=
  ⟨by rw [vAt_setVs _ _ _ _ _ _ (hls l hl) hls, if_pos ⟨rfl, hl⟩], by rw [vFull_setVs _ _ _ _ _ _ (hls l hl), if_pos ⟨rfl, hl⟩],
    by rw [tagAt_setVs _ _ _ _ _ _ (hls l hl), if_pos ⟨rfl, hl⟩], by rw [vBad_setVs _ _ _ _ _ _ (hls l hl), if_pos ⟨rfl, hl⟩]⟩

theorem lanesOf_lane (m : Mask) : ∀ l ∈ lanesOf m, l < 32 ∧ m.getLsbD l = true := fun _ h => (mem_lanesOf ..).1 h

end Sys2Proof.Machine
end

