-- ==== Sys2Proof/Laws/Issue.lean ====
section
/-! SUPPORT. The frame of every instruction: what the view of the issuing split holds, what issue answers, and what completing an
instruction changes. -/

namespace Sys2Proof.Machine

/-! ### The view of the issuing split -/

/-- Everything that the view takes from the state. -/
theorem State.ctx_spec {s : State} {c : Ctx} (h : s.ctx = some c) :
    c.s = s ∧ c.gid = s.cur.gang ∧ c.e = s.cur.entry ∧ s.gang c.gid = some c.g ∧ look c.g.splits c.e = some c.sp ∧
      s.block c.g.block = some c.blk ∧ s.part c.pid = some c.part ∧ c.pid = c.blk.part ∧ c.core = c.blk.core ∧ c.pc = s.cur.pc ∧
      c.next = s.cur.pc + BitVec.ofNat 32 s.cur.size ∧ c.word = s.cur.word ∧ c.pfxWord = s.cur.pfxWord ∧
      c.pfx = s.cur.pfx.getD Prefix.zero ∧ c.active = c.sp.mask := by
  unfold ctx at h
  split at h
  · cases h
  · split at h
    · split at h
      · cases h
      · cases h; exact ⟨rfl, rfl, rfl, by assumption, by assumption, by assumption, by assumption, rfl, rfl, rfl, rfl, rfl, rfl, rfl, rfl⟩
    · cases h

/-- The live lanes are active ones. -/
theorem State.ctx_live {s : State} {c : Ctx} (h : s.ctx = some c) {l : Nat} (hl : c.live.getLsbD l = true) : c.active.getLsbD l = true := by
  unfold ctx at h
  split at h
  · cases h
  · split at h
    · split at h
      · cases h
      · cases h
        simp only [BitVec.getLsbD_and, Bool.and_eq_true] at hl
        exact hl.1.1
    · cases h

/-! ### What issue answers -/

theorem Ctx.ready_spec {c : Ctx} {n : Needs} (h : c.ready n = true) :
    c.active ≠ 0 ∧ modeRank n.priv ≤ modeRank c.sp.mode ∧ n.wf = true ∧ n.also c = true ∧ n.srcs.all c.srcOk = true ∧
      n.dsts.all c.dstOk = true ∧ (n.k2 = true ∨ c.k2 = false) ∧ (n.coll = true → c.converged = true) ∧
      (∀ x ∈ n.srcs, c.emptyLanes x = 0) ∧ (∀ x ∈ n.srcs, c.badLanes x = 0) ∧ c.predBad = 0 ∧ ∀ x ∈ n.dsts, c.dstEmpty c.live x = false := by
  simp only [ready, Bool.and_eq_true, bne_iff_ne, ne_eq, decide_eq_true_eq, Bool.or_eq_true, Bool.not_eq_true', List.all_eq_true,
    beq_iff_eq] at *
  obtain ⟨⟨⟨⟨⟨⟨⟨⟨⟨⟨⟨h1, h2⟩, h3⟩, h4⟩, h5⟩, h6⟩, h7⟩, h8⟩, h9⟩, h10⟩, h11⟩, h12⟩ := h
  exact ⟨h1, h2, h3, h4, h5, h6, h7, fun hc => h8.resolve_left (by simp [hc]), h9, h10, h11, h12⟩

theorem foldl_empty (c : Ctx) (xs : List Src) (h : ∀ x ∈ xs, c.emptyLanes x = 0) :
    xs.foldl (fun m x => if x.traps then m ||| c.emptyLanes x else m) (0 : Mask) = 0 := by
  induction xs with
  | nil => rfl
  | cons x r ih =>
    have : (if x.traps = true then (0 : Mask) ||| c.emptyLanes x else 0) = 0 := by
      rw [h x List.mem_cons_self]; split <;> rfl
    rw [List.foldl_cons, this]
    exact ih fun y hy => h y (List.mem_cons_of_mem _ hy)

theorem foldl_bad (c : Ctx) (xs : List Src) (hp : c.predBad = 0) (h : ∀ x ∈ xs, c.badLanes x = 0) :
    xs.foldl (fun m x => m ||| c.badLanes x) c.predBad = 0 := by
  rw [hp]
  clear hp
  induction xs with
  | nil => rfl
  | cons x r ih =>
    rw [List.foldl_cons, h x List.mem_cons_self]
    exact ih fun y hy => h y (List.mem_cons_of_mem _ hy)

/-- An instruction whose conditions all hold does what its body does. -/
theorem issue_ready {s : State} {c : Ctx} {n : Needs} (h : s.ctx = some c) (hr : c.ready n = true) (body : Ctx → Act) :
    issue s n body = .next (c.finish [] (body c)) := by
  obtain ⟨h1, h2, h3, h4, h5, h6, h7, h8, h9, h11, h12, h10⟩ := Ctx.ready_spec hr
  have e2 : (!n.wf || !n.also c || !n.srcs.all c.srcOk || !n.dsts.all c.dstOk) = false := by rw [h3, h4, h5, h6]; rfl
  have e3 : (!n.k2 && c.k2) = false := by rcases h7 with h | h <;> rw [h] <;> simp
  have e4 : (n.coll && !c.converged) = false := by
    cases hn : n.coll
    · rfl
    · rw [h8 hn]; rfl
  have e5 : (n.srcs.any fun x => !x.traps && c.emptyLanes x != 0) = false := by
    rw [List.any_eq_false]; intro x hx; rw [h9 x hx, bne_self_eq_false, Bool.and_false]; exact Bool.false_ne_true
  have hl : c.live &&& ~~~(0 : Mask) = c.live := BitVec.and_allOnes
  have e6 : n.dsts.any (c.dstEmpty c.live) = false := by
    rw [List.any_eq_false]; intro x hx; rw [h10 x hx]; exact Bool.false_ne_true
  have e7 : ((0 : Mask) == c.active) = false := by
    rw [beq_eq_false_iff_ne]; exact fun e => h1 e.symm
  unfold issue
  rw [h]
  dsimp only
  rw [if_neg (by omega), e2, e3, e4, e5, foldl_empty c n.srcs h9, foldl_bad c n.srcs h12 h11]
  simp only [hl, e6, e7, Bool.false_eq_true, if_false]
  rfl

/-! ### What completing an instruction changes -/

theorem count_rest (s : State) (core part ev n : Nat) : s.count core part ev n = { s with cores := (s.count core part ev n).cores } := by
  unfold State.count; dsimp only; split <;> rfl

@[simp] theorem count_gang (s : State) (core part ev n k : Nat) : (s.count core part ev n).gang k = s.gang k := by
  rw [count_rest]; rfl

/-- The counters depend on the cores and the partitions alone. -/
theorem count_cores (s u : State) (core part ev n : Nat) (h : s.cores = u.cores) (hp : s.parts = u.parts) :
    (s.count core part ev n).cores = (u.count core part ev n).cores := by
  unfold State.count
  dsimp only
  split
  · exact h
  · unfold State.core State.setCore State.colourOf State.part
    rw [h, hp]

theorem count_parts (s : State) (core part ev n : Nat) : (s.count core part ev n).parts = s.parts := by rw [count_rest]

theorem counted_cores (c : Ctx) (s u : State) (h : s.cores = u.cores) (hp : s.parts = u.parts) : (c.counted s).cores = (c.counted u).cores :=
  count_cores _ _ _ _ _ _ (count_cores _ _ _ _ _ _ h hp) (by rw [count_parts, count_parts, hp])

theorem counted_rest (c : Ctx) (s : State) : c.counted s = { s with cores := (c.counted s).cores } := by
  unfold Ctx.counted; rw [count_rest, count_rest s]

/-- What the issue of an instruction changes: the sub-pipe taken, the counters, and the counts of the gang. -/
theorem issued_spec {c : Ctx} {s' : State} {g' : Gang} (hg : s'.gang c.gid = some g') :
    c.issued s' = { s' with gangs := (c.issued s').gangs, cores := (c.counted s').cores, picks := c.pick :: s'.picks } ∧
      (∀ k, k ≠ c.gid → (c.issued s').gang k = s'.gang k) ∧
      (c.issued s').gang c.gid =
        some { g' with ticks := g'.ticksWith c.active, skid := if c.skids then g'.skid + 1 else g'.skid } := by
  let x : State := { s' with
    picks := c.pick :: s'.picks
    gangs := modify s'.gangs c.gid fun g => { g with ticks := g.ticksWith c.active, skid := if c.skids then g.skid + 1 else g.skid } }
  have hx : c.issued s' = { x with cores := (c.counted s').cores } := by
    rw [← counted_cores c x s' rfl rfl, ← counted_rest c x]; rfl
  rw [hx]
  refine ⟨rfl, fun k hk => ?_, ?_⟩
  · show look (modify _ _ _) k = _
    rw [look_modify, if_neg hk]; rfl
  · show look (modify _ _ _) c.gid = _
    rw [look_modify, if_pos rfl, show look s'.gangs c.gid = some g' from hg]; rfl

/-- A completed instruction: s' is the state its body left, with gang g' and the issuing split unchanged. -/
theorem finish_done {c : Ctx} {s' : State} {g' : Gang} (hg : s'.gang c.gid = some g') (hs : look g'.splits c.e = some c.sp) :
    let t := c.finish [] (.done s' [])
    t = { s' with gangs := t.gangs, cores := t.cores, picks := c.pick :: s'.picks } ∧ t.cores = (c.counted s').cores ∧
      (∀ k, k ≠ c.gid → t.gang k = s'.gang k) ∧
      t.gang c.gid = some { g' with
        splits := set g'.splits c.e c.past, ticks := g'.ticksWith c.active, skid := if c.skids then g'.skid + 1 else g'.skid } := by
  obtain ⟨h1, h2, h3⟩ := issued_spec (c := c) hg
  have ht : c.finish [] (.done s' []) = (c.issued s').setGang c.gid { g' with
      splits := set g'.splits c.e c.past, ticks := g'.ticksWith c.active, skid := if c.skids then g'.skid + 1 else g'.skid } := by
    show c.advance (c.issued s') = _
    unfold Ctx.advance State.updSplit modify
    rw [h3]; dsimp only; rw [hs]; rfl
  rw [ht]
  refine ⟨by rw [h1]; rfl, by rw [h1]; rfl, fun k hk => by rw [State.gang_setGang, if_neg hk, h2 k hk], by simp⟩

/-- Splits and the counts of issued instructions are outside what a gang keeps. -/
theorem Gang.Kept.splits {g g' : Gang} {live : Mask} {w : Regs} (h : g.Kept g' live w) (sp : Store Split) (ts : List Nat) (n : Nat) :
    g.Kept { g' with splits := sp, ticks := ts, skid := n } live w :=
  ⟨h.v, h.tag, h.s, h.k, h.c, h.vBad, h.sBad, h.kBad, h.cBad, congrArg (fun x : Gang => { x with splits := sp, ticks := ts, skid := n }) h.rest⟩

/-- Completion from u: the body left s', which differs from u in the gang alone, now g' with its splits and counts as they were. -/
theorem completes_done {c : Ctx} {u s' : State} {g' : Gang} {w : Regs} (hsp : look c.g.splits c.e = some c.sp)
    (hu : s' = { u with gangs := s'.gangs }) (ho : ∀ k, k ≠ c.gid → s'.gang k = u.gang k) (hg : s'.gang c.gid = some g')
    (hk : c.g.Kept g' c.live w) (hs : g'.splits = c.g.splits) (ht : g'.ticks = c.g.ticks) (hn : g'.skid = c.g.skid) :
    c.Completes u (c.finish [] (.done s' [])) w c.past ∧
      ∃ sp ts n, (c.finish [] (.done s' [])).gang c.gid = some { g' with splits := sp, ticks := ts, skid := n } := by
  obtain ⟨h1, h2, h3, h4⟩ := finish_done (c := c) hg (by rw [hs]; exact hsp)
  refine ⟨⟨?_, ?_, fun k hk => (h3 k hk).trans (ho k hk), _, h4, hk.splits _ _ _, ?_, ?_, look_set_same .., fun e he => ?_⟩, _, _, _, h4⟩
  · rw [h1, hu]
  · rw [h2]; exact counted_cores c _ _ (by rw [hu]) (by rw [hu])
  · show bumpTicks g'.ticks c.active = bumpTicks c.g.ticks c.active
    rw [ht]
  · show (if c.skids then g'.skid + 1 else g'.skid) = if c.skids then c.g.skid + 1 else c.g.skid
    rw [hn]
  · show look (set g'.splits c.e _) e = _
    rw [look_set_other _ _ he, hs]

/-- An instruction that changes its own gang alone. -/
theorem issue_gangDone {s : State} {c : Ctx} {n : Needs} {w : Regs} (h : s.ctx = some c) (hr : c.ready n = true) (f : Ctx → Gang → Gang)
    (hk : c.g.Kept (f c c.g) c.live w) (hs : (f c c.g).splits = c.g.splits ∧ (f c c.g).ticks = c.g.ticks ∧ (f c c.g).skid = c.g.skid) :
    ∃ t, issue s n (fun c => c.gangDone (f c)) = .next t ∧ c.Completes s t w c.past ∧
      ∃ sp ts m, t.gang c.gid = some { f c c.g with splits := sp, ticks := ts, skid := m } := by
  have hc := State.ctx_spec h
  refine ⟨_, issue_ready h hr _, ?_⟩
  rw [Ctx.gangDone, hc.1]
  exact completes_done hc.2.2.2.2.1 rfl (fun k hk => by rw [State.gang_setGang, if_neg hk]) (State.gang_setGang_same ..) hk hs.1 hs.2.1 hs.2.2

theorem setVs_splits (g : Gang) (key : Nat) (ls : List Nat) (f : Nat → Word) :
    (g.setVs key ls f).splits = g.splits ∧ (g.setVs key ls f).ticks = g.ticks ∧ (g.setVs key ls f).skid = g.skid := by
  induction ls generalizing g with
  | nil => exact ⟨rfl, rfl, rfl⟩
  | cons l r ih => exact ih (g.setV key l (f l))

/-- An instruction that writes a v register in its live lanes. -/
theorem issue_writeV {s : State} {c : Ctx} {n : Needs} (h : s.ctx = some c) (hr : c.ready n = true) (r : Nat) (f : Ctx → Nat → Word) :
    ∃ t, issue s n (fun c => c.writeV r (f c)) = .next t ∧ c.Completes s t { v := [c.vk r] } c.past ∧
      ∀ l, c.Lane l → c.HoldsV t r l (f c l) := by
  obtain ⟨t, h1, h2, sp, ts, m, h3⟩ := issue_gangDone (w := { v := [c.vk r] }) h hr (fun c g => g.setVs (c.vk r) (lanesOf c.live) (f c))
    (Gang.kept_setVs _ List.mem_cons_self (lanesOf_lane _)) (setVs_splits ..)
  exact ⟨t, h1, h2, fun l hl => ⟨_, h3, c.g.setVs_lane (c.vk r) _ (f c) l ((mem_lanesOf ..).2 hl) fun x hx => (lanesOf_lane _ x hx).1⟩⟩

/-- An instruction that writes a pair in its live lanes. -/
theorem issue_writeV2 {s : State} {c : Ctx} {n : Needs} (h : s.ctx = some c) (hr : c.ready n = true) (r : Nat)
    (hp : c.vk (r + 1) ≠ c.vk r) (f : Ctx → Nat → BitVec 64) :
    ∃ t, issue s n (fun c => c.writeV2 r (f c)) = .next t ∧ c.Completes s t { v := [c.vk r, c.vk (r + 1)] } c.past ∧
      ∀ l, c.Lane l → c.HoldsV t r l ((f c l).extractLsb' 0 32) ∧ c.HoldsV t (r + 1) l ((f c l).extractLsb' 32 32) := by
  obtain ⟨t, h1, h2, sp, ts, m, h3⟩ := issue_gangDone (w := { v := [c.vk r, c.vk (r + 1)] }) h hr
    (fun c g => (g.setVs (c.vk r) (lanesOf c.live) fun l => (f c l).extractLsb' 0 32).setVs (c.vk (r + 1)) (lanesOf c.live)
      fun l => (f c l).extractLsb' 32 32)
    ((Gang.kept_setVs _ List.mem_cons_self (lanesOf_lane _)).trans
      (Gang.kept_setVs _ (List.mem_cons_of_mem _ List.mem_cons_self) (lanesOf_lane _)))
    (let a := setVs_splits c.g (c.vk r) (lanesOf c.live) fun l => (f c l).extractLsb' 0 32
     let b := setVs_splits (c.g.setVs (c.vk r) (lanesOf c.live) fun l => (f c l).extractLsb' 0 32) (c.vk (r + 1)) (lanesOf c.live)
       fun l => (f c l).extractLsb' 32 32
     ⟨b.1.trans a.1, b.2.1.trans a.2.1, b.2.2.trans a.2.2⟩)
  have hb : ∀ x ∈ lanesOf c.live, x < 32 := fun x hx => (lanesOf_lane _ x hx).1
  refine ⟨t, h1, h2, fun l hl => ?_⟩
  have hm := (mem_lanesOf ..).2 hl
  obtain ⟨a1, a2, a3, a4⟩ := c.g.setVs_lane (c.vk r) _ (fun l => (f c l).extractLsb' 0 32) l hm hb
  refine ⟨⟨_, h3, ?_, ?_, ?_, ?_⟩, ⟨_, h3, Gang.setVs_lane _ (c.vk (r + 1)) _ (fun l => (f c l).extractLsb' 32 32) l hm hb⟩⟩
  · exact (Gang.vAt_setVs _ _ _ _ _ _ hl.1 hb).trans ((if_neg fun e => hp e.1.symm).trans a1)
  · exact (Gang.vFull_setVs _ _ _ _ _ _ hl.1).trans ((if_neg fun e => hp e.1.symm).trans a2)
  · refine (Gang.tagAt_setVs _ _ _ _ _ _ hl.1).trans ?_
    split
    · rfl
    · exact a3
  · exact (Gang.vBad_setVs _ _ _ _ _ _ hl.1).trans ((if_neg fun e => hp e.1.symm).trans a4)

/-- An instruction that writes an s register. -/
theorem issue_writeS {s : State} {c : Ctx} {n : Needs} (h : s.ctx = some c) (hr : c.ready n = true) (r : Nat) (f : Ctx → Word) :
    ∃ t, issue s n (fun c => c.writeS r (f c)) = .next t ∧ c.Completes s t { s := [c.sk r] } c.past ∧ c.HoldsS t r (f c) := by
  obtain ⟨t, h1, h2, sp, ts, m, h3⟩ := issue_gangDone (w := { s := [c.sk r] }) h hr (fun c g => g.setS (c.sk r) (f c))
    (Gang.kept_setS _ List.mem_cons_self) ⟨rfl, rfl, rfl⟩
  refine ⟨t, h1, h2, _, h3, ?_, ?_⟩
  · show (c.g.setS _ _).sAt _ = _
    rw [Gang.sAt_setS, if_pos rfl]
  · show (c.g.setS (c.sk r) (f c)).sFull (c.sk r) = _
    rw [Gang.sFull_setS, if_pos rfl]

/-- An instruction that writes a k register in its live lanes; k0 ignores it. -/
theorem issue_writeK {s : State} {c : Ctx} {n : Needs} (h : s.ctx = some c) (hr : c.ready n = true) (k : Nat) (f : Ctx → Nat → Bool) :
    ∃ t, issue s n (fun c => c.writeK k (f c)) = .next t ∧ c.Completes s t { k := if k = 0 then [] else [k] } c.past ∧
      (k ≠ 0 → ∀ l, c.Lane l → c.HoldsK t k l (f c l)) := by
  have hsp : (c.g.setK k c.live (maskOf (f c))).splits = c.g.splits ∧ (c.g.setK k c.live (maskOf (f c))).ticks = c.g.ticks ∧
      (c.g.setK k c.live (maskOf (f c))).skid = c.g.skid := by unfold Gang.setK; split <;> exact ⟨rfl, rfl, rfl⟩
  have hk : c.g.Kept (c.g.setK k c.live (maskOf (f c))) c.live { k := if k = 0 then [] else [k] } := by
    by_cases h0 : k = 0
    · subst h0; exact .refl ..
    · exact Gang.kept_setK _ (by rw [if_neg h0]; exact List.mem_cons_self)
  obtain ⟨t, h1, h2, sp, ts, m, h3⟩ := issue_gangDone h hr (fun c g => g.setK k c.live (maskOf (f c))) hk hsp
  refine ⟨t, h1, h2, fun h0 l hl => ⟨_, h3, ?_⟩⟩
  show (c.g.setK _ _ _).kAt _ _ = _
  rw [Gang.kAt_setK _ _ _ _ _ _ hl.1, if_pos ⟨rfl, h0, hl.2⟩, getLsbD_maskOf _ _ hl.1]

end Sys2Proof.Machine
end

