-- ==== Sys2Proof/Laws/Touch.lean ====
section
/-! SUPPORT. Everything that a pass through the shared cache, and what is counted for it, can do: the valid lines and the tally change (R199, R200,
R396). -/

namespace Sys2Proof.Machine.State

variable (s : State)

theorem use_spec (component part n : Nat) : ∃ y, s.use component part n = { s with tally := y } := ⟨_, rfl⟩

theorem touchLine_spec (a part : Nat) (write : Bool) : ∃ x y, s.touchLine a part write = { s with slices := x, tally := y } := by
  simp only [touchLine]
  split <;> split <;> (try split) <;> exact ⟨_, _, rfl⟩

theorem foldl_touch_spec {f : State → Nat → State} (h : ∀ s u, ∃ x y, f s u = { s with slices := x, tally := y }) (us : List Nat) :
    ∃ x y, us.foldl f s = { s with slices := x, tally := y } := by
  induction us generalizing s with
  | nil => exact ⟨_, _, rfl⟩
  | cons u us ih =>
    obtain ⟨x, y, hu⟩ := h s u
    obtain ⟨x', y', hr⟩ := ih (f s u)
    exact ⟨x', y', by rw [List.foldl_cons, hr, hu]⟩

theorem touchRun_spec (a n part : Nat) (write : Bool) : ∃ x y, s.touchRun a n part write = { s with slices := x, tally := y } :=
  foldl_touch_spec s (fun s u => touchLine_spec s (u * 128) part write) _

theorem touchHeld_spec (a n : Nat) (write : Bool) : ∃ x y, s.touchHeld a n write = { s with slices := x, tally := y } :=
  foldl_touch_spec s (fun s u => by
    split
    · exact touchLine_spec s (u * 128) 64 write
    · exact ⟨_, _, rfl⟩) _

theorem carry_spec (part a size : Nat) : ∃ y, s.carry part a size = { s with tally := y } := by
  simp only [carry]
  split <;> exact ⟨_, rfl⟩

theorem devWrite_spec (part a : Nat) (bs : List Byte) :
    ∃ x y, s.devWrite part a bs = { s.writeBytes 0 a bs with slices := x, tally := y } := touchRun_spec _ a bs.length part true

end Sys2Proof.Machine.State
end

