-- ==== Sys2Proof/Laws/Seals.lean ====
section
/-! SUPPORT. Sealed records (R370): what a value reads back as from its bytes, and that a record the device has just sealed restores. -/

namespace Sys2Proof.Machine

@[simp] theorem length_leBytes (n v : Nat) : (leBytes n v).length = n := by
  induction n generalizing v with
  | zero => rfl
  | succ n ih => simp [leBytes, ih]

theorem leNat_leBytes (n v : Nat) : leNat (leBytes n v) = v % 256 ^ n := by
  induction n generalizing v with
  | zero => simp [leBytes, leNat, Nat.mod_one]
  | succ n ih =>
    simp only [leBytes, leNat, ih, BitVec.toNat_ofNat]
    rw [show (256 : Nat) ^ (n + 1) = 256 * 256 ^ n from Nat.pow_succ', show (2 : Nat) ^ 8 = 256 by rfl, Nat.mod_mul]

theorem length_sealedBytes (s : State) (part size seq n : Nat) (h : 8 ≤ size) : (s.sealedBytes part size seq n).length = size := by
  simp only [State.sealedBytes, List.length_append, length_leBytes]; omega

/-- Bytes written to HBM are read back. -/
theorem bytesAt_writeBytes (s : State) (a : Nat) (bs : List Byte) (h : isHost a = false) : (s.writeBytes 0 a bs).bytesAt 0 a bs.length = bs := by
  simp only [State.writeBytes, h, Bool.false_eq_true, if_false, State.bytesAt, evalWaits]
  exact readFrom_writeTo_same ..

/-- A record's bytes depend only on the contexts and the key slots. -/
theorem sealedBytes_devWrite (s : State) (p a : Nat) (bs : List Byte) (part size seq n : Nat) (h : isHost a = false) :
    (s.devWrite p a bs).sealedBytes part size seq n = s.sealedBytes part size seq n := by
  obtain ⟨x, y, hw⟩ := s.devWrite_spec p a bs
  rw [hw]
  simp only [State.writeBytes, h, Bool.false_eq_true, if_false]
  rfl

theorem bytesAt_devWrite (s : State) (p a : Nat) (bs : List Byte) (h : isHost a = false) : (s.devWrite p a bs).bytesAt 0 a bs.length = bs := by
  obtain ⟨x, y, hw⟩ := s.devWrite_spec p a bs
  rw [hw]
  exact bytesAt_writeBytes s a bs h

/-- A record sealed into HBM is the one kept, and verifies. -/
theorem sealCause_sealAt (s : State) (part : Nat) (place : Nat × Nat) (hh : isHost place.1 = false) (hs : 8 ≤ place.2) :
    (s.sealAt part place).1.sealCause part place (s.sealAt part place).2 = none := by
  have hb : (s.sealAt part place).1.bytesAt 0 place.1 place.2 =
      (s.sealAt part place).1.sealedBytes part place.2 (s.sealAt part place).2.1 (s.sealAt part place).2.2 := by
    simp only [State.sealAt]
    rw [sealedBytes_devWrite _ _ _ _ _ _ _ _ hh]
    have h2 := bytesAt_devWrite ({ (s.nextSeq part).1 with fresh := (s.nextSeq part).1.fresh + 1 } : State) part
      place.1 ((s.nextSeq part).1.sealedBytes part place.2 (s.nextSeq part).2 (s.nextSeq part).1.fresh) hh
    rw [length_sealedBytes _ _ _ _ _ hs] at h2
    exact h2
  have hq : (s.sealAt part place).2.1 < 256 ^ 8 := ((s.context part).haltSeq + 1).isLt
  simp only [State.sealCause, hb, bne_self_eq_false, Bool.false_eq_true, if_false]
  rw [State.sealedBytes, List.take_left' (length_leBytes 8 _), leNat_leBytes, Nat.mod_eq_of_lt hq]
  simp

end Sys2Proof.Machine
end

