-- ==== Sys2Proof/Tests/Slice0.lean ====
section
/-! SUPPORT. Tests. Each expected value is taken from the spec: encodings from the tables of 04, results from the rules named. The last
part shows, for every statement with hypotheses, a state and operands that meet them. -/

set_option Elab.async false

open Sys2Proof Sys2Proof.Machine

noncomputable section

namespace Sys2Proof.Tests

/-! ### Decoding: words written from the tables of 04 (R75, R77, R81, R83 to R91) -/

/-- The formats of R75 and R81, field by field from the top. -/
def w3R (op : BitVec 7) (fn : BitVec 4) (pb pa : BitVec 1) (b a d : Reg) : Nat := (fn ++ pb ++ pa ++ b ++ a ++ d ++ op ++ 1#1 : Word).toNat
def w4R (op : BitVec 7) (c b a d : Reg) : Nat := (c ++ b ++ a ++ d ++ op ++ 1#1 : Word).toNat
def wI (op : BitVec 7) (imm : BitVec 11) (pa : BitVec 1) (a d : Reg) : Nat := (imm ++ pa ++ a ++ d ++ op ++ 1#1 : Word).toNat
def wM (op : BitVec 7) (po : BitVec 1) (disp : BitVec 7) (base : BitVec 4) (o d : Reg) : Nat :=
  (po ++ disp ++ base ++ o ++ d ++ op ++ 1#1 : Word).toNat
def wB (op : BitVec 7) (disp : BitVec 21) (k : BitVec 3) : Nat := (disp ++ k ++ op ++ 1#1 : Word).toNat
def wX (op : BitVec 7) (fn : BitVec 12) (a b : Reg) : Nat := (fn ++ a ++ b ++ op ++ 1#1 : Word).toNat
/-- The capability group of R86: the subop above, the second operand x below it. -/
def wC (sub x a b : Reg) : Nat := wX 0x60 (sub ++ x) a b
def w16 (i : BitVec 1) (s d : BitVec 5) (op : BitVec 4) : Nat := (i ++ s ++ d ++ op ++ 0#1 : BitVec 16).toNat

/-- The words of 32 bits decode to the instructions. -/
def reads (l : List (Nat × Instr)) : Bool := l.all fun x => decodeTableWord 32 x.1 == some x.2
/-- Function codes 0, 1, … of one opcode, in the order of R83's and R84's tables. -/
def codes (f : Nat → Nat) (l : List Instr) (from_ : Nat := 0) : List (Nat × Instr) := l.zipIdx.map fun x => (f (x.2 + from_), x.1)

theorem test_decode_integer : reads (
    codes (fun n => w3R 0 (BitVec.ofNat 4 n) 0 1 9 10 11) [.iadd false true 9 10 11, .isub false true 9 10 11, .imul false true 9 10 11,
      .imulhI32 false true 9 10 11, .imulhN32 false true 9 10 11, .iminI32 false true 9 10 11, .iminN32 false true 9 10 11,
      .imaxI32 false true 9 10 11, .imaxN32 false true 9 10 11] ++ [(w3R 0 9 0 1 0 10 11, .iabsI32 true 10 11)] ++
    codes (fun n => w3R 0 (BitVec.ofNat 4 n) 1 0 63 0 62) [.iaddsI32 true false 63 0 62, .isubsI32 true false 63 0 62,
      .iaddsN32 true false 63 0 62, .isubsN32 true false 63 0 62] 10) = true := by decide +kernel
theorem test_decode_logic : reads (
    codes (fun n => w3R 1 (BitVec.ofNat 4 n) 0 1 9 10 11) [.and_ false true 9 10 11, .or_ false true 9 10 11, .xor_ false true 9 10 11,
      .andn false true 9 10 11, .shl false true 9 10 11, .shr false true 9 10 11, .sar false true 9 10 11, .rol false true 9 10 11] ++
    codes (fun n => w3R 1 (BitVec.ofNat 4 n) 0 1 0 10 11) [.popc true 10 11, .clz true 10 11, .brev true 10 11] 8) = true := by
  decide +kernel
theorem test_decode_compare : reads (
    codes (fun n => w3R 2 (BitVec.ofNat 4 n) 1 0 9 10 5) [.icmpEq true false 9 10 5, .icmpNe true false 9 10 5, .icmpLtI32 true false 9 10 5,
      .icmpLeI32 true false 9 10 5, .icmpLtN32 true false 9 10 5, .icmpLeN32 true false 9 10 5, .fcmpEq true false 9 10 5,
      .fcmpNe true false 9 10 5, .fcmpLt true false 9 10 5, .fcmpLe true false 9 10 5, .fcmpUn true false 9 10 5] ++
    [(w3R 3 6 0 0 1 2 3, .sel 6 false false 1 2 3), (w3R 3 14 0 0 1 2 3, .selN 6 false false 1 2 3)]) = true := by decide +kernel
theorem test_decode_4R : reads [(w4R 4 1 2 3 5, .imad 1 2 3 5), (w4R 5 1 2 3 5, .bfi 1 2 3 5), (w4R 6 0 2 3 5, .bfeN32 2 3 5),
    (w4R 7 0 2 3 5, .bfeI32 2 3 5), (w4R 0x15 1 2 3 5, .fmaF32 1 2 3 5), (w4R 0x17 1 2 3 5, .hfmaF16 1 2 3 5),
    (w4R 0x18 1 2 3 5, .hfmaBf16 1 2 3 5), (w4R 0x46 1 2 3 5, .simad 1 2 3 5)] = true := by decide +kernel
theorem test_decode_pairs : reads (codes (fun n => w3R 8 (BitVec.ofNat 4 n) 0 1 8 10 12) [.iaddI64 false true 8 10 12,
    .isubI64 false true 8 10 12, .shlI64 false true 8 10 12, .shrN64 false true 8 10 12, .sarI64 false true 8 10 12,
    .imulwI32 false true 8 10 12, .imulwN32 false true 8 10 12, .iminI64 false true 8 10 12, .imaxI64 false true 8 10 12]) = true := by
  decide +kernel
theorem test_decode_immediate : reads [(wI 9 0x7FF 1 3 4, .iaddi 0x7FF true 3 4), (wI 0x0A 5 0 3 4, .andi 5 false 3 4),
    (wI 0x0B 5 0 3 4, .ori 5 false 3 4), (wI 0x0C 5 0 3 4, .xori 5 false 3 4), (wI 0x0D 31 0 3 4, .shli 31 false 3 4),
    (wI 0x0E 31 0 3 4, .shri 31 false 3 4), (wI 0x0F 31 0 3 4, .sari 31 false 3 4), (wI 0x10 5 0 0 4, .movi 5 4),
    (wI 0x11 5 0 3 4, .sloi 5 false 3 4), (wI 0x12 5 0 3 4, .imuli 5 false 3 4), (wI 0x43 5 1 3 4, .siaddi 5 true 3 4),
    (wI 0x44 5 0 0 4, .smovi 5 4), (wI 0x45 5 1 3 4, .ssloi 5 true 3 4)] = true := by decide +kernel
theorem test_decode_moves : reads (codes (fun n => w3R 0x13 (BitVec.ofNat 4 n) 0 1 0 10 11) [.mov true 10 11, .sextI8 true 10 11,
    .sextI16 true 10 11, .zextN8 true 10 11, .zextN16 true 10 11]) = true := by decide +kernel
theorem test_decode_float : reads (
    codes (fun n => w3R 0x14 (BitVec.ofNat 4 n) 0 1 9 10 11) [.fadd false true 9 10 11, .fsub false true 9 10 11, .fmul false true 9 10 11,
      .fmin false true 9 10 11, .fmax false true 9 10 11, .fdiv false true 9 10 11] ++
    codes (fun n => w3R 0x14 (BitVec.ofNat 4 n) 0 1 0 10 11) [.fabs true 10 11, .fneg true 10 11, .fsqrt true 10 11, .frcp true 10 11,
      .frsq true 10 11, .fexp2 true 10 11, .flog2 true 10 11, .fsin true 10 11, .fcos true 10 11] 6 ++
    codes (fun n => w3R 0x19 (BitVec.ofNat 4 n) 0 1 0 10 11) [.cvtF32I32 true 10 11, .cvtF32N32 true 10 11, .cvtI32F32 true 10 11,
      .cvtN32F32 true 10 11, .cvtF16F32 true 10 11, .cvtBf16F32 true 10 11, .cvtF32F16 true 10 11, .cvtF32Bf16 true 10 11,
      .frnd true 10 11]) = true := by decide +kernel
theorem test_decode_halves : reads (
    codes (fun n => w3R 0x16 (BitVec.ofNat 4 n) 0 1 9 10 11) [.haddF16 false true 9 10 11, .hsubF16 false true 9 10 11,
      .hmulF16 false true 9 10 11, .hminF16 false true 9 10 11, .hmaxF16 false true 9 10 11, .haddBf16 false true 9 10 11,
      .hsubBf16 false true 9 10 11, .hmulBf16 false true 9 10 11, .hminBf16 false true 9 10 11, .hmaxBf16 false true 9 10 11] ++
    codes (fun n => w3R 0x1A (BitVec.ofNat 4 n) 0 1 0 10 11) [.quantSb7 true 10 11, .quantSb4 true 10 11, .quantSb2 true 10 11] ++
    codes (fun n => w3R 0x1A (BitVec.ofNat 4 n) 0 1 9 10 11) [.deqSb7 false true 9 10 11, .deqSb4 false true 9 10 11,
      .deqSb2 false true 9 10 11] 3) = true := by decide +kernel
theorem test_decode_lanes : reads (
    codes (fun n => wX 0x1B (BitVec.ofNat 12 n) 0b110101 3) [.kand 6 5 3, .kor 6 5 3, .kxor 6 5 3, .kandn 6 5 3] ++
    [(wX 0x1B 4 5 3, .knot 5 3)] ++
    codes (fun n => w3R 0x1C (BitVec.ofNat 4 n) 0 1 9 10 11) [.lsel false true 9 10 11, .lstep false true 9 10 11, .lstepW false true 9 10 11,
      .lmirror false true 9 10 11] ++
    codes (fun n => w3R 0x1C (BitVec.ofNat 4 n) 0 0 0 5 11) [.kmask 5 11, .kcount 5 11, .krank 5 11] 4 ++
    codes (fun n => w3R 0x1C (BitVec.ofNat 4 n) 0 1 0 10 11) [.lkin true 10 11, .lfoldAdd true 10 11, .lfoldMinI32 true 10 11,
      .lfoldMaxI32 true 10 11, .lfoldAnd true 10 11, .lfoldOr true 10 11, .lfoldXor true 10 11, .lfoldMinN32 true 10 11,
      .lfoldMaxN32 true 10 11] 7) = true := by decide +kernel
theorem test_decode_control : reads [(wX 0x1D 0 0 0, .exit_), (wX 0x1D 1 0 0, .yield), (wX 0x1D 2 9 0, .jmpr 9),
    (wX 0x1D 0x1A5 0 0, .join 0xA5), (wB 0x1E 0x1FFFFE 3, .brt 0x1FFFFE 3), (wB 0x1F 6 3, .brf 6 3), (wB 0x20 8 0, .call 8),
    (wX 0x77 0 0 0, .tret), (wX 0x77 1 0 0, .ifence), (wX 0x77 2 0 0, .bkpt), (wX 0x77 0x17F 0 0, .syscall 0x7F),
    (wX 0x77 0x203 0 0, .hvcall 3), (wX 0x75 0x130 1 9, .mfcr 0x130 true 9), (wX 0x75 8 0 9, .mfcr 8 false 9),
    (wX 0x76 0x101 9 0, .mtcr 0x101 9)] = true := by decide +kernel
theorem test_decode_uniform : reads (
    codes (fun n => w3R 0x40 (BitVec.ofNat 4 n) 0 1 9 10 11) [.siadd false true 9 10 11, .sisub false true 9 10 11, .simul false true 9 10 11,
      .simulhI32 false true 9 10 11, .simulhN32 false true 9 10 11, .siminI32 false true 9 10 11, .siminN32 false true 9 10 11,
      .simaxI32 false true 9 10 11, .simaxN32 false true 9 10 11] ++ [(w3R 0x40 9 0 1 0 10 11, .siabsI32 true 10 11)] ++
    codes (fun n => w3R 0x40 (BitVec.ofNat 4 n) 1 0 9 10 11) [.siaddsI32 true false 9 10 11, .sisubsI32 true false 9 10 11,
      .siaddsN32 true false 9 10 11, .sisubsN32 true false 9 10 11] 10 ++
    codes (fun n => w3R 0x41 (BitVec.ofNat 4 n) 0 1 9 10 11) [.sand false true 9 10 11, .sor false true 9 10 11, .sxor false true 9 10 11,
      .sandn false true 9 10 11, .sshl false true 9 10 11, .sshr false true 9 10 11, .ssar false true 9 10 11, .srol false true 9 10 11] ++
    codes (fun n => w3R 0x41 (BitVec.ofNat 4 n) 0 1 0 10 11) [.spopc true 10 11, .sclz true 10 11, .sbrev true 10 11] 8) = true := by
  decide +kernel
theorem test_decode_uniform_rest : reads (
    codes (fun n => w3R 0x42 (BitVec.ofNat 4 n) 0 1 9 10 11) [.scmpEq false true 9 10 11, .scmpNe false true 9 10 11,
      .scmpLtI32 false true 9 10 11, .scmpLeI32 false true 9 10 11, .scmpLtN32 false true 9 10 11, .scmpLeN32 false true 9 10 11] ++
    [(wM 0x47 1 0x7F 4 10 11, .ldu32 true 0x7F 4 10 11), (wX 0x48 0 10 11, .movVs 10 11), (wX 0x48 1 10 11, .movSv 10 11),
      (wX 0x48 0x05F 10 11, .rdlane 31 10 11)]) = true := by decide +kernel
theorem test_decode_short : ([(w16 1 0x1F 2 0, Instr.iaddShort true 0x1F 2), (w16 0 3 2 1, .isubShort false 3 2), (w16 0 3 2 2, .imulShort false 3 2),
    (w16 0 3 2 3, .andShort false 3 2), (w16 0 3 2 4, .orShort false 3 2), (w16 0 3 2 5, .xorShort false 3 2), (w16 1 3 2 6, .shlShort true 3 2),
    (w16 0 3 2 7, .shrShort false 3 2), (w16 0 3 2 8, .sarShort false 3 2), (w16 0 3 2 9, .movShort 3 2), (w16 1 3 2 9, .moviShort 3 2),
    (w16 0 3 2 10, .iminShort false 3 2), (w16 0 3 2 11, .imaxShort false 3 2), (w16 0 3 2 12, .faddShort 3 2), (w16 0 3 2 13, .fsubShort 3 2),
    (w16 0 3 2 14, .fmulShort 3 2), (w16 0 3 2 15, .fmaxShort 3 2)].all fun x => decodeTableWord 16 x.1 == some x.2) = true := by
  decide +kernel
theorem test_decode_capability : reads ([(wC 0 0 3 4, .cmov 3 4), (wC 1 6 3 4, .csetb 6 3 4), (wC 2 7 3 4, .candp 7 3 4), (wC 3 7 3 4, .cseal 7 3 4),
    (wC 4 0 3 4, .cunseal 3 4), (wC 5 7 3 4, .cdeleg 7 3 4), (wC 6 6 0 4, .croot 6 4), (wC 14 0 3 4, .cclrtag 3 4), (wC 15 0 3 8, .ctoq 3 8),
    (wC 16 0 8 4, .cfromq 8 4), (wC 17 5 3 40, .ccover 5 3 40)] ++
    codes (fun n => wC (BitVec.ofNat 6 n) 0 3 8) [.cgetBase 3 8, .cgetLen 3 8, .cgetPerm 3 8, .cgetType 3 8, .cgetTag 3 8, .cgetColour 3 8,
      .cgetGen 3 8] 7) = true := by decide +kernel
theorem test_decode_memory : reads ([(wM 0x61 1 0x40 4 10 12, .ld32 true 0x40 4 10 12), (wM 0x62 0 1 4 10 12, .ld64 false 1 4 10 12),
    (wM 0x63 0 1 4 10 12, .ld128 false 1 4 10 12), (wM 0x64 0 1 4 10 12, .st32 false 1 4 10 12), (wM 0x65 0 1 4 10 12, .st64 false 1 4 10 12),
    (wM 0x66 0 1 4 10 12, .st128 false 1 4 10 12), (wM 0x67 0 1 4 10 12, .ld32Quad false 1 4 10 12), (wM 0x68 0 1 4 10 12, .st32Quad false 1 4 10 12),
    (wM 0x69 0 1 4 10 12, .cld false 1 4 10 12), (wM 0x6A 0 1 4 10 12, .cst false 1 4 10 12), (wM 0x6B 0 1 0 10 12, .lds32 false 1 false 10 12),
    (wM 0x6C 1 1 1 10 12, .sts32 true 1 true 10 12)] ++
    codes (fun n => wX 0x6D (4#4 ++ BitVec.ofNat 8 n) 10 12) [.ldN8 4 10 12, .ldI8 4 10 12, .ldN16 4 10 12, .ldI16 4 10 12, .st8 4 10 12, .st16 4 10 12] ++
    codes (fun n => wX 0x6D (4#4 ++ BitVec.ofNat 8 n) 10 12) [.ldN8Quad 4 10 12, .ldI8Quad 4 10 12, .ldN16Quad 4 10 12, .ldI16Quad 4 10 12,
      .st8Quad 4 10 12, .st16Quad 4 10 12] 8 ++
    codes (fun n => wX 0x6D (4#4 ++ BitVec.ofNat 8 n) 10 12) [.ld64Quad 4 10 12, .st64Quad 4 10 12, .ld128Quad 4 10 12, .st128Quad 4 10 12] 0x10)
    = true := by decide +kernel
theorem test_decode_atomics : reads (
    codes (fun n => wX 0x6D (4#4 ++ BitVec.ofNat 8 n) 10 12) [.atomAdd 4 10 12, .atomMinI32 4 10 12, .atomMaxI32 4 10 12, .atomMinN32 4 10 12,
      .atomMaxN32 4 10 12, .atomAnd 4 10 12, .atomOr 4 10 12, .atomXor 4 10 12, .atomSwap 4 10 12, .atomCas 4 10 12, .atomAddF32 4 10 12] 0x20 ++
    codes (fun n => wX 0x6D (4#4 ++ BitVec.ofNat 8 n) 10 12) [.redAdd 4 10 12, .redMinI32 4 10 12, .redMaxI32 4 10 12, .redMinN32 4 10 12,
      .redMaxN32 4 10 12, .redAnd 4 10 12, .redOr 4 10 12, .redXor 4 10 12] 0x30 ++ [(wX 0x6D 0x43A 10 12, .redAddF32 4 10 12)] ++
    codes (fun n => wX 0x6D (1#4 ++ BitVec.ofNat 8 n) 10 12) [.atomsAdd true 10 12, .atomsMinI32 true 10 12, .atomsMaxI32 true 10 12,
      .atomsMinN32 true 10 12, .atomsMaxN32 true 10 12, .atomsAnd true 10 12, .atomsOr true 10 12, .atomsXor true 10 12, .atomsSwap true 10 12,
      .atomsCas true 10 12, .atomsAddF32 true 10 12] 0x40) = true := by decide +kernel
theorem test_decode_memory_rest : reads [(wX 0x6D 0x450 10 0, .prefetch 4 10), (wX 0x6D 0x451 10 12, .waitmemNe 4 10 12),
    (wX 0x6D 0x452 10 12, .waitmemEq 4 10 12), (wX 0x6D 0x054 10 0, .spempty 10), (wX 0x6D 0x055 10 0, .spfill 10),
    (wX 0x6D 0x458 10 16, .shape 4 10 16), (wX 0x6E 0b10011 0 0, .fence 4 3), (wX 0x6E 0x020 0 0, .fenceShape),
    (wX 0x6E 0x040 0b011010 0, .barArv 1 10), (wX 0x6E 0x041 0b110010 9, .barWait 3 2 9), (wX 0x6E 0x042 0b100010 9, .barSync 2 2 9),
    (wX 0x6E 0x043 0b010010 8, .barExp 1 2 8)] = true := by decide +kernel
theorem test_decode_matrix : reads [(wX 0x6F 0x000 5 9, .tcfg 5 9), (wX 0x6F 0x301 5 8, .tld 3 5 8), (wX 0x6F 0x302 5 8, .tst 3 5 8),
    (wX 0x6F 0x008 0b101010 9, .mma 5 2 9), (wX 0x6F 0x309 0b101010 9, .mmaq 3 5 2 9), (wX 0x6F 0x30A 8 0b101001, .mmaS 3 8 2 9),
    (wX 0x6F 0x010 9 0, .accAlloc 9), (wX 0x6F 0x011 9 0, .accFree 9), (wX 0x6F 0x014 9 0, .accZero 9), (wX 0x6F 0x312 9 20, .accRd 3 9 20),
    (wX 0x6F 0x313 9 20, .accWr 3 9 20), (wX 0x6F 0x315 9 20, .accDrain 3 9 20), (wX 0x6F 0x316 9 20, .accDrainAdd 3 9 20),
    (wX 0x6F 0x017 9 6, .accQuant 9 6)] = true := by decide +kernel
/-- R90: the capability in fn[11:8], ord in fn[7], the ordering in fn[6:5]. -/
theorem test_decode_flue : reads [(wX 0x70 (3#4 ++ 1#1 ++ 2#2 ++ 0#5) 10 4, .flueBoard 3 true true 10 4),
    (wX 0x70 (3#4 ++ 0#1 ++ 0#2 ++ 1#5) 10 4, .flueAlight 3 false false 10 4), (wX 0x70 (3#4 ++ 0#1 ++ 1#2 ++ 2#5) 10 12, .fluePeek 3 false true 10 12),
    (wX 0x70 (3#4 ++ 1#1 ++ 0#2 ++ 3#5) 10 12, .flueWaitEq 3 true false 10 12), (wX 0x70 (3#4 ++ 0#1 ++ 0#2 ++ 4#5) 10 12, .flueWaitNe 3 false false 10 12),
    (wX 0x70 (3#4 ++ 0#3 ++ 5#5) 0 12, .flueRev 3 12), (wX 0x70 (3#4 ++ 0#1 ++ 2#2 ++ 8#5) 10 12, .flueCap 3 false 2 0 10 12),
    (wX 0x70 (3#4 ++ 0#1 ++ 0#2 ++ 23#5) 10 16, .flueCapS2 3 false 0 7 10 16), (wX 0x70 (3#4 ++ 0#1 ++ 0#2 ++ 25#5) 10 16, .flueCapS4 3 false 0 1 10 16)]
    = true := by decide +kernel
theorem test_decode_queues_and_system : reads [(wX 0x71 (2#2 ++ 1#2 ++ 0#8) 10 0, .qw 2 1 10), (wX 0x71 0x101 0 0, .qgo 1), (wX 0x71 0x202 0 4, .qgoC 2 4),
    (wX 0x71 0x203 1 10, .qrd 2 true 10), (wX 0x71 0x304 0 10, .qstat 3 10), (wX 0x72 0x400 10 0, .launch 4 10), (wX 0x72 0x401 10 11, .graphTrig 4 10 11),
    (wX 0x72 0x002 10 16, .amsend 10 16), (wX 0x73 0x400 10 11, .hcmd 4 10 11), (wX 0x73 0x001 0 0, .sweep), (wX 0x73 0x002 10 0, .phalt 10),
    (wX 0x73 0x003 10 0, .presume 10), (wX 0x73 0x004 10 0, .resync 10), (wX 0x74 0x400 10 0, .esign 4 10), (wX 0x74 0x001 0 32, .psnap 32)] = true := by
  decide +kernel

/-- R73, R77: a prefix word and its instruction: k3 inverted, KIND 2, butterfly 5 on source a, SCOPE 4. -/
theorem test_decode_prefix :
    (match decode (leBytes 4 ((3#3 ++ 1#1 ++ 2#2 ++ 3#2 ++ 5#5 ++ 0#2 ++ 0#5 ++ 0#3 ++ 0#1 ++ 0x3F#7 ++ 1#1 : Word).toNat) ++ leBytes 4 (w3R 0x14 0 0 0 9 10 11)) with
     | .ok d => decide (d.instr = .fadd false false 9 10 11 ∧ d.size = 8 ∧
        d.pfx = some { predicate := 3, negate := true, kind := 2, modA := 3, amtA := 5, modB := 0, amtB := 0, scope := 0 })
     | .error _ => false) = true := by decide +kernel

/-- R74, R92: the zero parcel, unassigned codes, and reserved fields that are not 0 stand for no instruction; nor do rows without words
decode from anything. -/
theorem test_decode_refuses : ([(32, 0), (32, w3R 0 14 0 0 1 2 3), (32, w3R 0 9 0 0 1 2 3), (32, wB 0x20 8 1), (32, wX 0x21 0 0 0), (32, wX 0x7F 0 0 0),
    (32, wI 0x0D 32 0 3 4), (32, w3R 2 0 0 0 1 2 8), (32, wX 0x1D 3 0 0), (16, w16 1 3 2 12), (32, wC 18 0 0 0), (32, wX 0x6E 0x044 0 0),
    (32, wB 0x1F 6 0)].all fun x => (decodeTableWord x.1 x.2).isNone) = true := by decide +kernel

/-! ### The encodings that the spec works out (the tables at the end of 04, 06 to 09, 11 to 15, 18 and 19) -/

theorem test_worked_words : reads [(0x00614401, .iadd false false 6 5 4), (0x1100003B, .join 16), (0x000002EB, .mfcr 0 false 2), (0x09000421, .movi 72 4),
    (0xD1410423, .sloi 1674 false 4 4), (0x0C404609, .imad 3 4 1 6), (0x10024835, .quantSb4 false 9 8), (0x80510305, .fcmpLt false false 5 4 3),
    (0x30718539, .lmirror false false 7 6 5), (0x4000CA39, .kmask 3 10), (0x70008339, .lkin false 2 3), (0x80024439, .lfoldAdd false 9 4),
    (0x0001023F, .brf 0x20 2), (0xFFFFE13D, .brt 0x1FFFFC 1), (0x00040041, .call 0x80), (0x0021C03B, .jmpr 7), (0x105000EF, .syscall 5),
    (0x201000EF, .hvcall 1), (0x000000EF, .tret), (0x101140ED, .mtcr 0x101 5), (0x046105C1, .csetb 6 4 5), (0x149146C1, .cdeleg 9 5 6),
    (0x18A002C1, .croot 10 2), (0x200144C1, .cgetLen 5 4), (0x3C0148C1, .ctoq 5 8), (0x444143C1, .ccover 4 5 3)] = true := by decide +kernel
theorem test_worked_words_memory : reads [(0x320146DB, .atomAdd 3 5 6), (0x430089DB, .redAdd 4 2 9), (0x043010D3, .cld false 4 3 0 16),
    (0x020084D7, .lds32 false 2 false 2 4), (0x0210848F, .ldu32 false 2 1 2 4), (0x658088DB, .shape 6 2 8), (0x011000DD, .fence 4 1),
    (0x008000DD, .fence 2 0), (0x020000DD, .fenceShape), (0x0404C0DD, .barArv 1 3), (0x041842DD, .barWait 2 1 2), (0x042405DD, .barSync 1 0 5),
    (0x043C86DD, .barExp 3 2 6), (0x000084DF, .tcfg 2 4), (0x301006DF, .tld 3 0 6), (0x008801DF, .mma 4 0 1), (0x209A02DF, .mmaq 2 5 0 2),
    (0x70A293DF, .mmaS 7 10 1 3), (0x11204CDF, .accRd 1 1 12), (0x51604CDF, .accDrainAdd 5 1 12), (0x017086DF, .accQuant 2 6)] = true := by
  decide +kernel
theorem test_worked_words_queues : reads [(0x400085E1, .flueBoard 4 false false 2 5), (0x402094E1, .fluePeek 4 false false 2 20),
    (0x40308DE1, .flueWaitEq 4 false false 2 13), (0x405003E1, .flueRev 4 3), (0x42F088E1, .flueCap 4 false 1 7 2 8), (0x44B090E1, .flueCap 4 false 2 3 2 16),
    (0x498110E1, .flueCapS4 4 true 0 0 4 16), (0x400280E3, .qw 1 0 10), (0x001000E3, .qgo 0), (0x003014E3, .qrd 0 false 20), (0x202006E3, .qgoC 2 6),
    (0x104003E3, .qstat 1 3), (0x004100E7, .resync 4), (0x002100E7, .phalt 4), (0x003100E7, .presume 4), (0x200105E7, .hcmd 2 4 5), (0x001000E7, .sweep)]
    = true := by decide +kernel
/-- Bytes in memory order, of 16, 32 and 64 bits. -/
theorem test_worked_bytes : ([([0x60, 0x94], .iaddShort true 5 3), ([0x78, 0x1C], .faddShort 7 3), ([0x01, 0x44, 0x61, 0x00], .iadd false false 6 5 4),
    ([0x7F, 0x00, 0x00, 0x40, 0xC3, 0x48, 0x31, 0x04], .ld32 false 4 3 5 8), ([0x7F, 0x00, 0x08, 0x07, 0x29, 0x44, 0x61, 0x00], .fadd false false 6 5 4),
    ([0x7F, 0x00, 0x00, 0x0C, 0x2B, 0xCA, 0xC2, 0x34], .fmaF32 13 12 11 10), ([0x7F, 0x08, 0x00, 0x04, 0xDB, 0x43, 0x20, 0x25], .waitmemEq 2 1 3)] :
    List (List Byte × Instr)).all (fun x => match decode x.1 with
      | .ok d => decide (d.instr = x.2) && d.size == x.1.length && encode x.2 == some (x.1.drop (x.1.length - if x.1.length = 2 then 2 else 4))
      | .error _ => false) = true := by decide +kernel

/-! ### Ill-formed terms: one for each check (R36, R74, R76, R88, R90, R91, R155, R248, R298) -/

theorem test_refuses_ill_formed : ([.iaddI64 false false 1 2 4, .iaddI64 false false 2 1 4, .iaddI64 false false 2 4 5, .shlI64 false false 1 3 4,
    .imulwI32 false false 1 2 5, .brf 0 0, .iaddShort false 0 0, .csetb 1 0 0, .croot 1 0, .cgetBase 0 1, .cgetLen 0 63, .ctoq 0 2, .cfromq 6 0,
    .ld64 false 0 0 0 1, .ld128 false 0 0 0 2, .st64 false 0 0 0 1, .st128 false 0 0 0 2, .cld false 0 0 0 6, .cst false 0 0 0 6, .ld64Quad 0 0 1,
    .st64Quad 0 0 1, .ld128Quad 0 0 2, .st128Quad 0 0 2, .atomCas 0 0 1, .atomsCas false 0 1, .shape 0 0 4, .fence 0 0, .fence 6 0, .barArv 0 1,
    .barWait 0 1 0, .barSync 3 8 0, .barExp 1 0 1, .barExp 0 0 0, .tld 0 0 1, .tst 0 0 1, .mmaS 0 1 0 0, .accDrain 0 0 2, .accDrainAdd 0 0 2,
    .flueBoard 0 false false 1 0, .flueAlight 0 false false 1 0, .fluePeek 0 false false 0 2, .flueCap 0 false 3 0 0 0, .flueCap 0 false 0 7 0 4,
    .flueCapS2 0 false 0 0 0 4, .flueCapS4 0 false 0 7 0 16, .qw 0 0 1, .qw 0 3 0, .qgo 3, .qgoC 3 0, .qrd 3 false 0, .qrd 0 false 1, .amsend 0 8,
    .psnap 8] : List Instr).all (fun i => !wellFormed i) = true := by decide +kernel

/-! ### Results (06, 07): hand calculations from the rules named -/

/-- R112: -2^31 × 2 = -2^32; 0xFFFFFFFF × 2 = 2^33 - 2; the clamps; the absolute value of -2^31. -/
theorem test_integer_results : iMulhS 0x80000000 2 = 0xFFFFFFFF ∧ iMulhN 0xFFFFFFFF 2 = 1 ∧ iMinS 0xFFFFFFFF 1 = 0xFFFFFFFF ∧
    iMinN 0xFFFFFFFF 1 = 1 ∧ iMaxS 0xFFFFFFFF 1 = 1 ∧ iMaxN 0xFFFFFFFF 1 = 0xFFFFFFFF ∧ iAbs 0x80000000 = 0x80000000 ∧ iAbs 0xFFFFFFFF = 1 ∧
    iAddS 0x7FFFFFFF 1 = 0x7FFFFFFF ∧ iSubS 0x80000000 1 = 0x80000000 ∧ iAddN 0xFFFFFFFF 1 = 0xFFFFFFFF ∧ iSubN 0 1 = 0 := by decide +kernel
/-- R113: a count of 0x100 shifts by 256; ROL takes b[4:0]; CLZ of 0 is 32. -/
theorem test_shift_results : shl (0xFFFFFFFF : Word) 0x100 = 0 ∧ shr (0xFFFFFFFF : Word) 32 = 0 ∧ sar (0x80000000 : Word) 0x100 = 0xFFFFFFFF ∧
    sar (0x80000000 : Word) 31 = 0xFFFFFFFF ∧ rol 0x80000001 33 = 3 ∧ popc 0xF0F0F0F0 = 16 ∧ clz 0 = 32 ∧ clz 1 = 31 ∧ clz 0x80000000 = 0 ∧
    brev 1 = 0x80000000 := by decide +kernel
/-- R115, R141: signed and natural order; a NaN compares unequal and unordered; +0 equals -0. -/
theorem test_compares : sltS 0xFFFFFFFF 0 = true ∧ sltN 0xFFFFFFFF 0 = false ∧ sleS 5 5 = true ∧ sleN 6 5 = false ∧ fEq 0x00000000 0x80000000 = true ∧
    fEq 0x7FC00000 0x7FC00000 = false ∧ fUn 0x7FC00000 0 = true ∧ fLt 0xBF800000 0x3F800000 = true ∧ fLe 0x7F800000 0x7F800000 = true := by
  decide +kernel
/-- R118: position in bits 4:0 and width in bits 13:8 of the control. -/
theorem test_fields : bfi 0xFF 0 0x00000404 = 0xF0 ∧ bfeN 0x000000F0 0x00000404 = 0xF ∧ bfeS 0x000000F0 0x00000404 = 0xFFFFFFFF ∧ bfeN 0xFFFFFFFF 0 = 0 := by
  decide +kernel
/-- R119: pairs. -/
theorem test_pairs : mulwS 0xFFFFFFFF 2 = 0xFFFFFFFFFFFFFFFE ∧ mulwN 0xFFFFFFFF 2 = 0x1FFFFFFFE ∧ min64 0xFFFFFFFFFFFFFFFF 0 = 0xFFFFFFFFFFFFFFFF ∧
    max64 0xFFFFFFFFFFFFFFFF 0 = 0 ∧ shl (1 : BitVec 64) 63 = 0x8000000000000000 ∧ sar (0x8000000000000000 : BitVec 64) 64 = 0xFFFFFFFFFFFFFFFF := by
  decide +kernel
/-- R83, R122: SLOI and the extensions. -/
theorem test_immediates : sloi 1 0x7FF = 0xFFF ∧ immS 0x7FF = 0xFFFFFFFF ∧ sext8 0x180 = 0xFFFFFF80 ∧ sext16 0x8000 = 0xFFFF8000 ∧ zext8 0x1FF = 0xFF ∧
    zext16 0x1FFFF = 0xFFFF := by decide +kernel
/-- R131, R137: 1 + 2^-24 ties to 1 and rounds up to 1 + 2^-23; the largest finite value plus itself; 1 - 1 in RD is -0; 1/3; √4. -/
theorem test_float_arithmetic : f32.add 0 0x3F800000 0x33800000 = 0x3F800000 ∧ f32.add 2 0x3F800000 0x33800000 = 0x3F800001 ∧
    f32.add 0 0x7F7FFFFF 0x7F7FFFFF = 0x7F800000 ∧ f32.add 1 0x7F7FFFFF 0x7F7FFFFF = 0x7F7FFFFF ∧ f32.sub 3 0x3F800000 0x3F800000 = 0x80000000 ∧
    f32.sub 0 0x7F800000 0x7F800000 = 0x7FC00000 ∧ f32.mul 0 0 0x7F800000 = 0x7FC00000 ∧ f32.mul 0 0x40000000 0xC0400000 = 0xC0C00000 ∧
    f32.div 0 0x3F800000 0x40400000 = 0x3EAAAAAB ∧ f32.div 1 0x3F800000 0x40400000 = 0x3EAAAAAA ∧ f32.div 0 0xBF800000 0 = 0xFF800000 ∧
    f32.sqrt 0 0x40800000 = 0x40000000 ∧ f32.sqrt 0 0x80000000 = 0x80000000 ∧ f32.sqrt 0 0xBF800000 = 0x7FC00000 := by decide +kernel
/-- R138: a NaN operand gives the other; -0 is below +0. R140: one rounding: (1 + 2^-23)^2 - 1 - 2^-22 = 2^-46. -/
theorem test_float_min_max_fma : f32.min 0x7FC00000 0x3F800000 = 0x3F800000 ∧ f32.min 0 0x80000000 = 0x80000000 ∧ f32.max 0 0x80000000 = 0 ∧
    f32.max 0x7FC00000 0xFFC00000 = 0x7FC00000 ∧ f32.fma 0 0x3F800001 0x3F800001 0xBF800002 = 0x28800000 ∧
    fabsBits 0xFFC00001 = 0x7FC00001 ∧ fnegBits 0x7FC00000 = 0xFFC00000 := by decide +kernel
/-- R139: exact reciprocals and powers of two, and the special values. -/
theorem test_float_functions : frcpOf 0x40000000 = 0x3F000000 ∧ frcpOf 0x80000000 = 0xFF800000 ∧ frsqOf 0xBF800000 = 0x7FC00000 ∧ frsqOf 0 = 0x7F800000 ∧
    fexp2Of 0x40400000 = 0x41000000 ∧ fexp2Of 0xFF800000 = 0 ∧ flog2Of 0x41000000 = 0x40400000 ∧ flog2Of 0 = 0xFF800000 ∧ fsinOf 0xC0000000 = 0x80000000 ∧
    fsinOf 0x3F000000 = 0x3F800000 ∧ fcosOf 0x3F000000 = 0 ∧ fcosOf 0x3F800000 = 0xBF800000 := by decide +kernel
/-- R129, R142: halves of two formats: 1 + 1 = 2 low, 65504 + 65504 overflows high; BF16 1 × 2. -/
theorem test_halves : halves2 (f16.add 0) 0x7BFF3C00 0x7BFF3C00 = 0x7C004000 ∧ halves2 (bf16.mul 0) 0x3F803F80 0x40004000 = 0x40004000 ∧
    halves2 f16.min 0x7E000000 0x3C008000 = 0x3C008000 ∧ halves3 (f16.fma 0) 0x3C003C00 0x3C003C00 0x3C003C00 = 0x40004000 := by decide +kernel
/-- R144, R145: conversions: rounding by mode, clamping, and the widths. -/
theorem test_conversions : cvtF32S 0 0x01000001 = 0x4B800000 ∧ cvtF32S 2 0x01000001 = 0x4B800001 ∧ cvtF32N 0 0xFFFFFFFF = 0x4F800000 ∧
    cvtS 1 0xBFC00000 = 0xFFFFFFFF ∧ cvtS 3 0xBFC00000 = 0xFFFFFFFE ∧ cvtS 0 0x4F000000 = 0x7FFFFFFF ∧ cvtN 0 0xBF800000 = 0 ∧
    reformat f32 f16 0 0x3F800000 = 0x3C00 ∧ reformat f32 f16 0 0x477FF000 = 0x7C00 ∧ reformat f32 bf16 0 0x3F808000 = 0x3F80 ∧ reformat f16 f32 0 1 = 0x33800000 ∧
    frndBits 0 0x40200000 = 0x40000000 ∧ frndBits 2 0x40200000 = 0x40400000 := by decide +kernel
/-- The worked example of 07: QUANT.SB4 of 7.9, -1.3, 0.7, 2.9, 1.9, 0, -0.0625, 0.3125, 0.3, -0.2, 0.05 and zeros. -/
theorem test_quantise : quantBlock 4 ([0x40FCCCCD, 0xBFA66666, 0x3F333333, 0x4039999A, 0x3FF33333, 0, 0xBD800000, 0x3EA00000, 0x3E99999A, 0xBE4CCCCD,
    0x3D4CCCCD] ++ List.replicate 5 0) = (0x81F8, [0x0F, 0x13, 0x01, 0x06, 0x0F, 0, 0x10, 0x02, 0x05, 0x13, 0x01, 0, 0, 0, 0, 0]) := by decide +kernel
/-- The same example read back (R147): 7.5, -1.5, 1.875, +0 of M = 0, 0.3125, -0.1875; X = 255 is NaN. -/
theorem test_dequantise : deq 4 0x81F8000F 0 = 0x40F00000 ∧ deq 4 0x81F80013 1 = 0xBFC00000 ∧ deq 4 0x81F8000F 4 = 0x3FF00000 ∧ deq 4 0x81F80010 6 = 0 ∧
    deq 4 0x81F80005 8 = 0x3EA00000 ∧ deq 4 0x81F80013 9 = 0xBE400000 ∧ deq 7 0xFF000000 0 = 0x7FC00000 ∧ deq 7 0x7F000040 0 = 0x3F800000 := by
  decide +kernel

/-! ### Capabilities (09) -/

/-- R168: a capability of 0x1000 bytes at 0x280000, its fields, and what a check of R171 finds. -/
def data : Cap := Cap.make 0x28000 0x1000 (permR ||| permW ||| permLC ||| permSC) 1 0 0 true
theorem test_capability_fields : data.flat = 0x280000 ∧ data.len = 0x1000 ∧ data.perm = 0x1B ∧ data.type = 0 ∧ data.colour = 1 ∧ data.gen = 0 := by
  decide +kernel
/-- R171, R172: the last word is in bounds and the next is not (cause 2); a missing permission is cause 3; an untagged one cause 1; a word
at an odd place cause 16. -/
theorem test_capability_checks : check15 data permR 0xFFC 4 4 = none ∧ (check15 data permR 0x1000 4 4).map (·.1) = some 2 ∧
    (check15 data permR (-4) 4 4).map (·.1) = some 2 ∧ (check15 data permX 0 4 4).map (·.1) = some 3 ∧
    (check15 { data with tag := false } permR 0 4 4).map (·.1) = some 1 := by decide +kernel

/-! ### Small states -/

/-- Gang 3 of the loaded machine (log 9) at an instruction: one split of 32 lanes in U mode at 0x10, its v, s and k registers zero and full. -/
def base : State := { State.reset.loaded [] with agenda := [], cur := { gang := 3, entry := 0, pc := 0x10, size := 4, word := 0, pfx := none, pfxWord := 0 } }
def onGang (f : Gang → Gang) (s : State) : State := { s with gangs := modify s.gangs 3 f }
def onSplit (f : Split → Split) (s : State) : State := s.updSplit 3 0 f
def onBlock (f : Machine.Block → Machine.Block) (s : State) : State := { s with blocks := modify s.blocks 2 f }
def onPart (f : Part → Part) (s : State) : State := { s with parts := modify s.parts 0 f }
def inMode (m : Mode) (s : State) : State := onSplit (fun x => { x with mode := m }) s
/-- s register r holds x; every lane of v register r does; c register r holds the capability. -/
def putS (r : Nat) (x : Word) (s : State) : State := onGang (fun g => g.setS r x) s
def putV (r : Nat) (x : Nat → Word) (s : State) : State := onGang (fun g => g.setVs r (List.range 32) x) s
def putC (r : Nat) (x : Cap) (s : State) : State := onGang (fun g => { g with c := put Cap.null g.c r x }) s
/-- With the data capability in c2, the offsets 16 × lane in v1, and a copy of it in each lane's quad v8. -/
def withData : State :=
  onGang (fun g => (List.range 32).foldl (fun g l => g.setQuad 8 l data) g) (putV 1 (fun l => BitVec.ofNat 32 (16 * l)) (putC 2 data base))

theorem meets (s : State) (P : Ctx → Prop) [DecidablePred P] (h : s.ctx.any (fun c => decide (P c)) = true) : ∃ c, s.ctx = some c ∧ P c := by
  cases hc : s.ctx with
  | none => simp [hc] at h
  | some c => exact ⟨c, rfl, by simpa [hc] using h⟩

/-- The state after the next step. -/
def after (s : State) : Option State := match step s with
  | .next t => some t
  | _ => none
/-- What holds of gang 3 after the next step. -/
def then3 (s : State) (p : State → Gang → Bool) : Bool := (after s).any fun t => (t.gang 3).any (p t)
def runs (bits w : Nat) (p : State → Gang → Bool) : Bool := then3 (State.reset.withFetchWord bits w) p
def entry0 (g : Gang) (p : Split → Bool) : Bool := (look g.splits 0).any p

/-! ### One step each, from words that the spec works out -/

/-- R120: MOVI v4, 72 in every lane; the split goes on at the next instruction. -/
theorem test_step_movi : runs 32 0x09000421 (fun _ g => (List.range 32).all (fun l => g.vAt 4 l == 72) && entry0 g (·.pc == 0x14)) = true := by decide +kernel
/-- R81: a 16-bit parcel: IADD v3, 5 adds to v3 and takes two bytes. -/
theorem test_step_short : runs 16 0x9460 (fun _ g => g.vAt 3 31 == 5 && entry0 g (·.pc == 0x12)) = true := by decide +kernel
/-- R124: SMOVI s6, 16. R68: MFCR v2, laneid gives each lane its number. -/
theorem test_step_smovi_mfcr : runs 32 0x02000689 (fun _ g => g.sAt 6 == 16) = true ∧
    runs 32 0x000002EB (fun _ g => (List.range 32).all fun l => g.vAt 2 l == BitVec.ofNat 32 l) = true := by
  decide +kernel
/-- R156: CALL +0x100 links in v7; R155: BRT k0, taken in every lane, moves by twice its displacement. -/
theorem test_step_call_branch : runs 32 0x00040041 (fun _ g => g.vAt 7 0 == 0x14 && entry0 g (·.pc == 0x110)) = true ∧
    runs 32 0x0000203D (fun _ g => entry0 g (·.pc == 0x18)) = true := by decide +kernel
/-- R161, R355, R357: SYSCALL 5 enters the S handler at depth 1; its frame holds cause 64, the number as detail, and the next instruction. -/
theorem test_step_syscall : runs 32 0x105000EF (fun t g => let f := State.reset.loaded [] |>.frameAt g 1
    entry0 g (fun sp => sp.mode == .s && sp.depth == 1 && sp.pc == 0) && t.value (f + 24) 1 == 64 && t.value (f + 56) 8 == 5 &&
      t.value (f + 20) 4 == 0x14 && t.value (f + 16) 4 == 0x10 && t.value (f + 12) 4 == 0x105000EF) = true := by decide +kernel
/-- R92: the zero parcel raises cause 32 in every lane, resuming at itself; HVCALL in U mode raises cause 33. -/
theorem test_step_illegal : runs 32 0 (fun t g => t.value (t.frameAt g 1 + 24) 1 == 32 && t.value (t.frameAt g 1 + 20) 4 == 0x10 &&
    t.value (t.frameAt g 1 + 8) 4 == 0xFFFFFFFF) = true ∧ runs 32 0x201000EF (fun t g => t.value (t.frameAt g 1 + 24) 1 == 33) = true := by decide +kernel
/-- R159: EXIT of all lanes leaves no split. -/
theorem test_step_exit : runs 32 0x0000003B (fun _ g => g.exited == 0xFFFFFFFF && g.splits.isEmpty) = true := by decide +kernel
/-- R152: KMASK v10, k0 gives every lane the mask of the group; R153: LKIN of equal values counts 32 lanes from lane 0. -/
theorem test_step_lanes : runs 32 (w3R 0x1C 4 0 0 0 0 10) (fun _ g => g.vAt 10 5 == 0xFFFFFFFF) = true ∧
    runs 32 0x70008339 (fun _ g => g.vAt 3 9 == 0x400) = true := by decide +kernel
/-- R299: QW q0, 1, s10 sets bit 1 of the written mask. R248, R250: BAR.ARV b0 of a block of one gang completes its phase. -/
theorem test_step_queue_barrier : runs 32 0x400280E3 (fun _ g => (g.queue 0).written == 2) = true ∧
    runs 32 (wX 0x6E 0x040 0x10 0) (fun t _ => (t.barGet (.block 2 0)).any fun b => b.phase && b.arr == 0 && b.count == 1) = true := by decide +kernel

/-- exec of an instruction at a state answers a state and gang 3 of which p holds. -/
def does (s : State) (i : Instr) (p : State → Gang → Bool) : Bool := match exec i s with
  | .next t => (t.gang 3).any (p t)
  | _ => false

/-- R154: LFOLD.ADD of 16 × lane over 32 lanes is 16 × 496. R151: LMIRROR with 1 swaps neighbours; LSTEP past the group reads the lane
itself. R80: rotation by 1. -/
theorem test_cross_lane : does withData (.lfoldAdd false 1 4) (fun _ g => g.sAt 4 == 7936) = true ∧
    does (putV 2 (fun _ => 1) withData) (.lmirror false false 2 1 5) (fun _ g => g.vAt 5 4 == 80 && g.vAt 5 5 == 64) = true ∧
    does (putV 2 (fun _ => 1) withData) (.lstep false false 2 1 5) (fun _ g => g.vAt 5 4 == 80 && g.vAt 5 31 == 496) = true ∧
    does { withData with cur := { withData.cur with pfx := some { Prefix.zero with modA := 1, amtA := 1 } } } (.iadd false false 0 1 5)
      (fun _ g => g.vAt 5 31 == 0 && g.vAt 5 0 == 16) = true := by decide +kernel
/-- The worked example of 08: lanes 0 to 29 of a native gang, with lane mod 4 in v2, 1 in v1 and 3 in v5. -/
def example08 : State := onGang (fun g => { (g.setV 2 30 7).setV 2 31 9 with exited := 0xC0000000 }) (onSplit (fun x => { x with mask := 0x3FFFFFFF })
  (putV 5 (fun _ => 3) (putV 2 (fun l => BitVec.ofNat 32 (l % 4)) (putV 1 (fun _ => 1) base))))
theorem test_worked_lanes : does example08 (.lkin false 2 3) (fun _ g => g.vAt 3 5 == 0x101 && g.vAt 3 2 == 0xE2) = true ∧
    does example08 (.lstep false false 1 2 4) (fun _ g => g.vAt 4 28 == 1 && g.vAt 4 29 == 7 && g.vAt 4 30 == 0) = true ∧
    does example08 (.icmpEq false false 5 2 1) (fun t _ => does { t with cur := { t.cur with pc := 0x14 } } (.kmask 1 6) (fun _ g => g.vAt 6 9 == 0x08888888) &&
      does t (.krank 1 7) (fun _ g => g.vAt 7 11 == 2 && g.vAt 7 12 == 3)) = true ∧
    does example08 (.lfoldAdd false 2 6) (fun _ g => g.sAt 6 == 43) = true := by decide +kernel
/-- R56, R79: a compare writes only the live lanes of k; under the prefix's predicate the others keep theirs. -/
theorem test_predication : does (onGang (fun g => g.setK 2 0xFFFFFFFF 0x0000FFFF)
    { withData with cur := { withData.cur with pfx := some { Prefix.zero with predicate := 2 } } }) (.iaddi 1 false 1 5)
    (fun _ g => g.vAt 5 15 == 241 && g.vAt 5 16 == 0) = true := by decide +kernel
/-- R57, R218: LD.32 empties its destination and puts one request per lane in flight, at BASE + offset. -/
theorem test_load : does withData (.ld32 false 1 2 1 12) (fun t g => g.vFull 12 0 == false && t.reqs.length == 32 &&
    (t.reqs.map fun x => x.2.addr) == (List.range 32).map fun l => 0x280000 + 16 * l + 4) = true := by decide +kernel
/-- R217, R355, R8: of a store at 0xE10 + 16 × lane under a capability that ends at 0x1000, lane 31 alone is out of bounds and traps with cause 2;
the other lanes go on. -/
theorem test_store_partial_trap : does (putV 1 (fun l => BitVec.ofNat 32 (0xE10 + 16 * l)) withData) (.st32 false 0 2 1 12) (fun t g => t.reqs.length == 31 &&
    entry0 g (fun sp => sp.mask == 0x7FFFFFFF && sp.pc == 0x14) && (look g.splits 1).any (fun sp => sp.mask == 0x80000000 && sp.mode == .s && sp.depth == 1) &&
    t.value (t.frameAt g 1 + 24) 1 == 2) = true := by decide +kernel
/-- R225: lanes that all add to one word: the split goes on at once with an update per lane in flight, each lane's in a pass of its own, and their
destinations empty. -/
theorem test_atomic_updates : does withData (.atomAdd 2 0 12) (fun t g => (t.reqs.map fun x => x.2.pass) == List.range 32 &&
    g.vFull 12 31 == false && entry0 g (fun sp => sp.pc == 0x14 && sp.only == 0)) = true := by decide +kernel
/-- R215, R221: STS.32 of all lanes to one word leaves the highest lane's value. -/
theorem test_scratchpad : does withData (.sts32 false 2 false 0 1) (fun t _ => (t.block 2).any fun b => b.padBytes 8 4 == leBytes 4 496) = true := by decide +kernel
/-- R181, R182: CSETB narrows, in units of 16 bytes, to 16 bytes at 0x20; past the end it raises cause 2. -/
theorem test_csetb : does (putS 4 2 (putS 5 1 withData)) (.csetb 4 2 3) (fun _ g => (lookD Cap.null g.c 3).flat == 0x280020 &&
      (lookD Cap.null g.c 3).len == 16 && (lookD Cap.null g.c 3).tag) = true ∧
    does (putS 4 0x100 (putS 5 1 withData)) (.csetb 4 2 3) (fun t g => t.value (t.frameAt g 1 + 24) 1 == 2) = true := by decide +kernel
/-- R361: TRET from depth 1 goes back to the resume address of the frame, in U mode. -/
theorem test_tret : (match exec (.syscall 0) base with
    | .next t => does { t with cur := { t.cur with pc := 0, word := 0xEF } } .tret (fun _ g => entry0 g fun sp => sp.mode == .u && sp.depth == 0 && sp.pc == 0x14 && sp.mask == 0xFFFFFFFF)
    | _ => false) = true := by decide +kernel
/-- R227: atomics' results. -/
theorem test_atomic_results : atomNew 0 0xFFFFFFFF 2 0 = 1 ∧ atomNew 1 0xFFFFFFFF 1 0 = 0xFFFFFFFF ∧ atomNew 4 0xFFFFFFFF 1 0 = 0xFFFFFFFF ∧ atomNew 8 5 7 0 = 7 ∧
    atomNew 9 5 5 9 = 9 ∧ atomNew 9 6 5 9 = 6 ∧ atomNew 10 0x3F800000 0x3F800000 0 = 0x40000000 := by decide +kernel

/-! ### The statements' hypotheses are met: one theorem for each statement that has any -/

/-- Needs of the statements about instructions of lane and uniform registers, at the base state, with registers at both ends of their range. -/
theorem test_meets_LaneInstructionResults : ∃ c, base.ctx = some c ∧ (∀ n ∈ ([
    { srcs := [.v 0 1 true .a, .v 63 1 false .b], dsts := [.v 63 1] }, { srcs := [.v 63 1 true .a], dsts := [.v 0 1] },
    { srcs := [.v 63 1 false .none, .v 0 1 false .none, .v 1 1 false .none], dsts := [.v 63 1] },
    { srcs := [.v 63 1 false .none, .v 0 1 false .none], dsts := [.v 63 1] },
    { wf := even 62 && even 0 && even 62, srcs := [.v 62 2 true .a, .v 0 2 false .b], dsts := [.v 62 2] },
    { wf := even 62 && even 0, srcs := [.v 62 2 true .a, .v 63 1 false .b], dsts := [.v 0 2] },
    { wf := even 62, srcs := [.v 63 1 true .a, .v 0 1 false .b], dsts := [.v 62 2] },
    { srcs := [.v 0 1 false .none], dsts := [.v 63 1] }, { dsts := [.v 63 1] },
    { srcs := [.v 31 1 false .none], dsts := [.v 31 1] }, { srcs := [.v 31 1 false .none, .v 0 1 false .none], dsts := [.v 31 1] }] : List Needs),
    c.ready n = true) := meets base _ (by decide +kernel)

/-- SEL's operands, with and without a predicate that leaves lanes 16 to 31 out, and k1 true in half of the lanes. -/
def selecting : State := onGang (fun g => g.setK 1 0xFFFFFFFF 0xFFFF) base
theorem test_meets_SelectChoosesByItsPredicate : ∀ p ∈ [Prefix.zero, { Prefix.zero with predicate := 1 }],
    ∃ c, { selecting with cur := { selecting.cur with pfx := some p } }.ctx = some c ∧ c.ready { srcs := [.v 63 1 true .a, .v 0 1 false .b, .k 1], dsts := [.v 63 1] } = true ∧
      c.sp.only = 0 ∧ c.live.getLsbD 3 = true ∧ c.live.getLsbD 31 = (p == Prefix.zero) ∧ c.g.kAt 1 3 = true ∧ c.g.kAt 1 31 = false ∧ c.g.kAt 0 31 = true := by
  intro p h
  simp only [List.mem_cons, List.not_mem_nil, or_false] at h
  rcases h with rfl | rfl <;> exact meets _ _ (by decide +kernel)
/-- LKIN's operands in a native gang and in compatibility mode. -/
theorem test_meets_KinAreCountedAndLed : ∀ b ∈ [false, true], ∃ c, (onBlock (fun x => { x with hdr := { x.hdr with compat := b } }) base).ctx = some c ∧
    c.ready { coll := true, srcs := [.v 63 1 true .none], dsts := [.v 0 1] } = true ∧ c.pfx.predicate = 0 ∧ c.pfx.negate = false ∧ c.sp.only = 0 ∧
      c.groupSize = (if b then 16 else 32) ∧ c.live.getLsbD 31 = true := by
  intro b _
  cases b <;> exact meets _ _ (by decide +kernel)

theorem test_meets_PredicateAndUniformResults : ∃ c, base.ctx = some c ∧ (∀ n ∈ ([
    { srcs := [.v 63 1 true .a, .v 0 1 false .b] }, { srcs := [.k 7, .k 0] }, { srcs := [.k 1] }, { srcs := [.s 0 1 true, .s 63 1 false], dsts := [.s 63 1] },
    { srcs := [.s 63 1 true], dsts := [.s 0 1] }, { dsts := [.s 63 1] },
    { srcs := [.s 0 1 false, .s 1 1 false, .s 63 1 false], dsts := [.s 63 1] }] : List Needs), c.ready n = true) := meets base _ (by decide +kernel)

/-- A gang in compatibility mode, for the folds of two halves. -/
def compat : State := onBlock (fun b => { b with hdr := { b.hdr with compat := true } }) base
theorem test_meets_CrossLaneResults : (∃ c, base.ctx = some c ∧ (∀ n ∈ ([
      { coll := true, srcs := [.v 63 1 true .none, .cross 0 true fun _ l => 31 - l], dsts := [.v 63 1] }, { coll := true, srcs := [.k 7], dsts := [.v 63 1] },
      { srcs := [.s 63 1 false], dsts := [.v 63 1] },
      { srcs := [.cross 63 false fun c _ => lowest c.active], dsts := [.s 63 1] }, { srcs := [.cross 63 false fun _ _ => 31], dsts := [.s 63 1] },
      { coll := true, srcs := [.v 63 1 true .none], also := fun c => !c.blk.hdr.compat || even 63 },
      { coll := true, k2 := false, dsts := [.v 63 1], srcs := (List.range 16).map fun i => .cross 0 true fun c l => c.srcLane .a (l / 16 * 16 + i) },
      { k2 := false, srcs := [.v 0 1 true .a, .v 63 1 false .b], dsts := [.v 1 1] }] : List Needs), c.ready n = true) ∧
      c.g.sFull (c.sk 63) = true) ∧
    (∃ c, compat.ctx = some c ∧ c.ready { coll := true, srcs := [.v 63 1 true .none], also := fun c => !c.blk.hdr.compat || even 62 } = true ∧
      c.live &&& 0x0000FFFF ≠ 0 ∧ c.live &&& 0xFFFF0000 ≠ 0 ∧ c.g.sFull (c.sk 62) = true ∧ c.g.sFull (c.sk 63) = true) :=
  ⟨meets base _ (by decide +kernel), meets compat _ (by decide +kernel)⟩

/-- Blocks of 16 with a NaN and without; and elements under a scale word of 255, of M = 0, and of the smallest number. -/
theorem test_meets_QuantisationIsPinned : (List.replicate 16 (0x7FC00000 : Word)).length = 16 ∧ f32.isNan 0x7FC00000 = true ∧
    (f32.val 0x80000000 matches .fin true 0 _) = true ∧ (List.range 16).all (fun i => !f32.isNan ((List.replicate 16 (0x80000001 : Word)).getD i 0).toNat &&
      !f32.isInf ((List.replicate 16 (0x80000001 : Word)).getD i 0).toNat) = true ∧ (0xFF000001 : Word).toNat / 2 ^ 16 / 256 = 255 ∧
    (0x00FF0080 : Word).toNat / 2 ^ 16 / 256 ≠ 255 ∧ (0x00FF0080 : Word).toNat % 2 ^ 7 = 0 ∧ (0x00FF0081 : Word).toNat % 2 ^ 7 = 1 := by decide +kernel

/-- The loaded machine whose next move issues an instruction, or bytes that stand for none. -/
def issuing (w : Nat) : State := State.reset.withFetchWord 32 w
theorem test_meets_StepRunsTheDecodedInstruction : ∃ g sp b p code bs d, (issuing 0x00614401).agenda = [.issue 3 0 []] ∧
    (issuing 0x00614401).mayIssue 3 0 = true ∧ (issuing 0x00614401).gang 3 = some g ∧ look g.splits 0 = some sp ∧
    (∀ f < 5, f ≠ 0 → look g.splits f = none) ∧ (issuing 0x00614401).block g.block = some b ∧ (issuing 0x00614401).part b.part = some p ∧
    { issuing 0x00614401 with agenda := [] }.fetchAt 3 b.core b.part p (g.codeCap sp.mode) ((issuing 0x00614401).codeLenOf g sp b) (if sp.only = 0 then [] else sp.code.map fun (x : Nat × List Byte) => x.1) sp.code
      sp.pc.toNat = .ok (code, bs) ∧ decode bs = .ok d ∧ damped d.word = false ∧ (issuing 0x00614401).hasIssued 3 sp.mask = false ∧
    (issuing 0x00614401).pipeTaken (pickOf b.core 3 g.seat sp.mask d.word) = false ∧ sp.only = 0 ∧ (issuing 0x00614401).gangs.length = 1 := by
  refine ⟨_, _, _, _, _, _, _, rfl, by decide +kernel, rfl, rfl, by decide +kernel, rfl, rfl, rfl, rfl, by decide +kernel⟩
/-- The split has issued in this clk, and its sub-pipe is taken: by gang 7 of the same quadrant. -/
theorem test_meets_StepRunsTheDecodedInstruction_held : let s := issuing 0x00614401
    (s.gang 3).any (fun g => (look g.splits 0).any fun sp => let p := pickOf 0 3 g.seat sp.mask 0x00614401
      ({ s with picks := [p] } : State).hasIssued 3 sp.mask && !({ s with picks := [{ p with gang := 7 }] } : State).hasIssued 3 sp.mask &&
        ({ s with picks := [{ p with gang := 7 }] } : State).pipeTaken p) = true := by decide +kernel
theorem test_meets_FetchReadsTheBytesInMemory : let s := issuing 0x00614401
    (16 : Nat) % 2 = 0 ∧ 16 + 8 ≤ 16 + 8 ∧ loadCode.tag = true ∧ loadCode.type = 0 ∧ loadCode.allows permX = true ∧ loadCode.perm &&& permW = 0 ∧
    16 + 8 ≤ loadCode.len ∧ loadCode.flat + 16 + 8 ≤ 2 ^ 47 ∧
    ∀ i < 4, s.check67 loadPart loadCode.colour loadCode.gen false (loadCode.flat + 16 + 2 * i) 2 = none ∧
      s.poisoned (loadCode.flat + 16 + 2 * i) 2 = false := by decide +kernel
theorem test_meets_DecodeInvertsEncode : wellFormed (.flueCapS4 15 true 2 7 63 32) = true ∧ (encode (.flueCapS4 15 true 2 7 63 32)).isSome = true ∧
    wellFormed (.fadd true true 63 63 63) = true ∧
    (encodePrefixed { Prefix.zero with predicate := 7, negate := true, kind := 3, modA := 3, amtA := 31 } (.fadd true true 63 63 63)).isSome = true ∧
    prefixOk { Prefix.zero with predicate := 7, negate := true, kind := 3, modA := 3, amtA := 31 } (prefixUse (.fadd true true 63 63 63)) = true := by
  decide +kernel

/-- The conditions of a trap entry at a state. -/
theorem test_meets_TrapEntryWritesFrameAndHandler : ∃ c, base.ctx = some c ∧ c.MayTrap base ∧ (255 : Nat) < 256 ∧ (2 ^ 64 - 1 : Nat) < 2 ^ 64 :=
  meets base _ (by decide +kernel)
theorem test_meets_TrapAndPrivilegedInstructions : (∃ c, base.ctx = some c ∧ c.MayTrap base ∧ c.sp.mode = .u) ∧
    (∃ c, (inMode .s base).ctx = some c ∧ c.MayTrap (inMode .s base) ∧ c.sp.mode ≠ .u ∧ c.sp.mode ≠ .h ∧ (0x200 : Nat) ≤ (0x201 : BitVec 12).toNat) ∧
    ∃ c, (inMode .h base).ctx = some c ∧ c.MayTrap (inMode .h base) ∧ c.sp.mode = .h ∧ (0x300 : Nat) ≤ (0x300 : BitVec 12).toNat :=
  ⟨meets base _ (by decide +kernel), meets _ _ (by decide +kernel), meets _ _ (by decide +kernel)⟩

/-- In the handler of SYSCALL, at its TRET: all lanes, and with one lane that has returned. -/
def handling : State := match exec (.syscall 0) base with
  | .next t => { t with cur := { t.cur with pc := 0, word := 0xEF } }
  | _ => base
/-- The word RESUME of the handler's frame. -/
def resumeAt (s : State) (c : Ctx) : Word := BitVec.ofNat 32 (s.value (s.frameAt c.g (if c.sp.dbl then 0 else c.sp.depth) + 20) 4)
/-- (look … ).any says that there is an entry, and what holds of it. All lanes, with the pending split at RESUME too; with one that has waited in
FLUE.WAIT until then; a trap left half; and a stack, an open access, no seat record, and an odd RESUME. -/
theorem test_meets_TrapReturnRestoresTheSplit :
    (∀ p ∈ [(none, none), (some (0x14, 0xFF), none), (some (0x10, 0xFF), some (Wake.flue 0x14))],
      let s := onGang (fun g => { g with traps := g.traps.map fun x => (x.1, { x.2 with pending := p.1, wait := p.2 }) }) handling
      ∃ c, s.ctx = some c ∧ c.active ≠ 0 ∧ c.sp.mode ≠ .u ∧ c.sp.stack = [] ∧ s.openFor c.gid c.active = false ∧ s.seatOk c.g = true ∧
        ((look c.g.traps c.sp.trapKey).any fun r => decide (r.lanes &&& ~~~c.active = 0) && (s.pendingParts c.gid r).all fun q => q.1 == resumeAt s c) = true ∧
        (resumeAt s c).getLsbD 0 = false) ∧
    (let half := onSplit (fun x => { x with mask := 0xFFFF }) handling
    ∃ c, half.ctx = some c ∧ c.active ≠ 0 ∧ c.sp.mode ≠ .u ∧ c.sp.stack = [] ∧ half.openFor c.gid c.active = false ∧ half.seatOk c.g = true ∧
      ((look c.g.traps c.sp.trapKey).any fun r => decide (r.pending = none ∧ r.lanes &&& ~~~c.active ≠ 0 ∧ r.depth ≠ c.sp.trapKey)) = true) ∧
    (let s := onSplit (fun x => { x with stack := [⟨0x60, 1⟩] }) handling
    ∃ c, s.ctx = some c ∧ c.sp.stack ≠ [] ∧ c.MayTrap s) ∧
    (let s := { handling with reqs := [(1, { (default : Req) with gang := 3, mask := 1, stage := .sent })] }
    ∃ c, s.ctx = some c ∧ c.sp.stack = [] ∧ s.openFor c.gid c.active = true) ∧
    (let s := { handling with extents := [] }
    ∃ c, s.ctx = some c ∧ c.sp.stack = [] ∧ s.openFor c.gid c.active = false ∧ s.seatOk c.g = false) ∧
    let s : State := { handling with mem := handling.mem.map fun (x : Host.Cell) => if x.2 = 0x14 then (x.1, 0x15) else x }
    ∃ c, s.ctx = some c ∧ c.MayTrap handling ∧ (resumeAt s c).getLsbD 0 = true := by
  refine ⟨?_, meets _ _ (by decide +kernel), meets _ _ (by decide +kernel), meets _ _ (by decide +kernel), meets _ _ (by decide +kernel), meets _ _ (by decide +kernel)⟩
  intro p h
  have h2 : p = (none, none) ∨ p = (some (0x14, 0xFF), none) ∨ p = (some (0x10, 0xFF), some (Wake.flue 0x14)) := by simpa using h
  obtain rfl | rfl | rfl := h2 <;> exact meets _ _ (by decide +kernel)

/-- Bytes that stand for no instruction (R92 checks 1 and 2); and, one for each clause: a register the static rules refuse, K2 code, a gang that
has not converged, a waiting source, an empty destination, and a trapping source empty in every lane. -/
theorem test_meets_IllegalAndUnreadyInstructions :
    ((issuing 0).mayIssue 3 0 = true ∧ ((issuing 0).gang 3).any (fun g => (look g.splits 0).any fun sp => ((issuing 0).block g.block).any fun b =>
      ((issuing 0).part b.part).any fun p => match { issuing 0 with agenda := [] }.fetchAt 3 b.core b.part p (g.codeCap sp.mode)
        ((issuing 0).codeLenOf g sp b) [] sp.code sp.pc.toNat with
        | .ok (_, bs) => (match decode bs with | .error _ => sp.only == 0 && !(issuing 0).hasIssued 3 sp.mask | .ok _ => false)
        | .error _ => false) = true) ∧
    let named := fun (c : Ctx) (n : Needs) => n.wf && n.also c && n.srcs.all c.srcOk && n.dsts.all c.dstOk
    (∃ c, base.ctx = some c ∧ named c { wf := false } = false) ∧
    (∃ c, compat.ctx = some c ∧ named c { k2 := false } = true ∧ c.k2 = true) ∧
    (∃ c, (onSplit (fun x => { x with mask := 0xFFFF }) base).ctx = some c ∧ named c { coll := true } = true ∧ c.k2 = false ∧ c.converged = false) ∧
    (∃ c, (onGang (fun g => { g with vEmpty := [(1, 1)] }) base).ctx = some c ∧
      (let n : Needs := { srcs := [.v 1 1 false .none] }; named c n = true ∧ n.srcs.any (fun x => !x.traps && c.emptyLanes x != 0) = true)) ∧
    (∃ c, (onGang (fun g => { g with vBad := [(1, 1)] }) base).ctx = some c ∧
      (let n : Needs := { srcs := [.v 1 1 false .none] }; named c n = true ∧ c.emptyLanes (.v 1 1 false .none) = 0 ∧
        n.srcs.foldl (fun m x => m ||| c.badLanes x) c.predBad = 1)) ∧
    (∃ c, (onGang (fun g => { g with kBad := [(2, 3)] }) { base with cur := { base.cur with pfx := some { Prefix.zero with predicate := 2 } } }).ctx = some c ∧
      named c {} = true ∧ c.predBad = 3) ∧
    (∃ c, (onGang (fun g => { g with vEmpty := [(1, 1)] }) base).ctx = some c ∧
      (let n : Needs := { srcs := [.v 2 1 true .none], dsts := [.v 1 1] }
      n.srcs.foldl (fun m x => m ||| c.badLanes x) c.predBad = 0 ∧ named c n = true ∧ (∀ x ∈ n.srcs, c.emptyLanes x = 0) ∧ n.dsts.any (c.dstEmpty c.live) = true)) ∧
    ∃ c, (onGang (fun g => { g with vEmpty := [(1, 0xFFFFFFFF)] }) base).ctx = some c ∧
      (let n : Needs := { srcs := [.v 1 1 true .none] }
      n.srcs.foldl (fun m x => m ||| c.badLanes x) c.predBad = 0 ∧ named c n = true ∧ ∀ x ∈ n.srcs, x.traps = true ∧ c.emptyLanes x = c.active ∧ c.emptyLanes x &&& ~~~c.active = 0) :=
  ⟨by decide +kernel, meets _ _ (by decide +kernel), meets _ _ (by decide +kernel), meets _ _ (by decide +kernel), meets _ _ (by decide +kernel),
    meets _ _ (by decide +kernel), meets _ _ (by decide +kernel), meets _ _ (by decide +kernel), meets _ _ (by decide +kernel)⟩

/-- Targets of four groups in v3, lane 31's odd or not. -/
def jumping (odd : Bool) (s : State) : State := putV 3 (fun l => if odd && l == 31 then 0x41 else BitVec.ofNat 32 (0x40 + 0x40 * (l % 4))) s
/-- Lanes 0 to 15 true in k1; the same with a full split table; and its targets in v3. -/
def branching : State := putV 3 (fun l => if l < 16 then 0x40 else 0x80) (onGang (fun g => g.setK 1 0xFFFFFFFF 0xFFFF) base)
def crowded : State := onGang (fun g => { g with splits := g.splits ++ [(1, Split.start 0 0 .u 0 []), (2, Split.start 0 0 .u 0 []), (3, Split.start 0 0 .u 0 [])] })
  (onSplit (fun x => { x with stack := [⟨0x60, 1⟩, ⟨0x64, 2⟩, ⟨0x68, 4⟩] }) branching)
/-- A split of lanes 16 to 31 that JOIN holds beside the issuing one of lanes 0 to 15. -/
def joining : State := onGang (fun g => { g with splits := g.splits ++ [(1, { Split.start 0xFFFF0000 0x10 .u 0 [] with run := .held 7 })] })
  (onSplit (fun x => { x with mask := 0xFFFF }) base)
theorem test_meets_ControlTransfersAndExits_transfers :
    (∃ c, branching.ctx = some c ∧ c.ready { srcs := [.k 1] } = true ∧ (let taken := c.active &&& maskOf fun l => c.g.kAt 1 l == true
      taken ≠ c.active ∧ taken ≠ 0) ∧ c.g.freeEntry = some 1) ∧
    (∃ c, crowded.ctx = some c ∧ c.ready { srcs := [.k 1] } = true ∧ c.g.freeEntry = none ∧ c.sp.stack.length < 4 ∧ c.sp.stack.length = 3) ∧
    (∃ c, branching.ctx = some c ∧ c.ready { srcs := [.k 0] } = true ∧ c.ready { srcs := [.k 2] } = true ∧ (c.active &&& maskOf fun l => c.g.kAt 0 l == true) = c.active ∧
      (c.active &&& maskOf fun l => c.g.kAt 2 l == true) = 0) ∧
    (∃ c, branching.ctx = some c ∧ c.ready { dsts := [.v 7 1] } = true ∧ c.ready { srcs := [.v 3 1 false .none] } = true ∧
      (∀ l < 32, c.active.getLsbD l = true → (c.v 3 .none l).getLsbD 0 = false ∧ (c.v 3 .none l = 0x40 ∨ c.v 3 .none l = 0x80)) ∧
      c.v 3 .none (lowest c.active) = 0x40 ∧ c.v 3 .none 31 = 0x80 ∧ (∀ l < 32, c.v 4 .none l = 0)) ∧
    (∃ c, joining.ctx = some c ∧ c.ready {} = true ∧ (look c.g.splits 1).any (fun x => fusible x c.sp && x.run == .held 7 && x.stack == []) = true ∧
      c.sp.stack = [] ∧ c.g.spills = [] ∧ c.g.traps = []) ∧
    (∃ c, crowded.ctx = some c ∧ c.ready {} = true ∧ c.g.spills = [] ∧ (∀ x ∈ c.g.splits, x.2.run = .ready) ∧
      c.sp.stack.any (fun x => x.pc == c.next) = false ∧ (c.sp.stack.drop 1).length < 3) ∧
    (∃ c, (onSplit (fun x => { x with stack := [⟨0x14, 1⟩] }) base).ctx = some c ∧ c.ready {} = true ∧ c.sp.stack.map (·.pc) = [c.next]) ∧
    (∃ c, (putV 3 (fun l => BitVec.ofNat 32 (2 * l + 1)) base).ctx = some c ∧ c.MayTrap (putV 3 (fun l => BitVec.ofNat 32 (2 * l + 1)) base) ∧
      c.ready { srcs := [.v 3 1 false .none] } = true ∧ ∀ l < 32, c.active.getLsbD l = true → (c.v 3 .none l).getLsbD 0 = true) ∧
    ∃ c, base.ctx = some c ∧ c.ready {} = true ∧ c.sp.stack = [] ∧ base.acquiring c.gid c.active = false :=
  ⟨meets _ _ (by decide +kernel), meets _ _ (by decide +kernel), meets _ _ (by decide +kernel), meets _ _ (by decide +kernel), meets _ _ (by decide +kernel), meets _ _ (by decide +kernel),
    meets _ _ (by decide +kernel), meets _ _ (by decide +kernel), meets _ _ (by decide +kernel)⟩

/-- JMPR to four groups with free entries, and with none but room on the stack; some lanes to an odd target, with and without a free entry. -/
theorem test_meets_ControlTransfersAndExits_jumps : ∀ odd ∈ [false, true], ∀ s ∈ [branching, onSplit (fun x => { x with stack := [] }) crowded],
    ∃ c, (jumping odd s).ctx = some c ∧ c.MayTrap (jumping odd s) ∧ c.ready { srcs := [.v 3 1 false .none] } = true ∧
      (let bad := c.active &&& maskOf fun l => (c.v 3 .none l).getLsbD 0
      let targets := (((lanesOf c.active).map (c.v 3 .none)).filter fun x => !x.getLsbD 0).eraseDups
      let free := (List.range 4).filter fun f => (look c.g.splits f).isNone
      (bad == 0) = !odd ∧ targets = [0x40, 0x80, 0xC0, 0x100] ∧ (free = [1, 2, 3] ∨ free = []) ∧ 3 - (free.length - 1) + c.sp.stack.length ≤ 4) := by
  intro odd _ s h
  have h2 : s = branching ∨ s = onSplit (fun x => { x with stack := [] }) crowded := by simpa using h
  cases odd <;> obtain rfl | rfl := h2 <;> exact meets _ _ (by decide +kernel)

def spilling : State := onGang (fun g => { g with spills := [⟨0, 1, .u, 0, 1⟩] })
  (onSplit (fun x => { x with stack := [⟨0x60, 1⟩, ⟨0x64, 2⟩, ⟨0x68, 4⟩, ⟨0x6C, 8⟩] }) base)
/-- A full stack, with slot 0 in use, so that slot 1 is the lowest free; and exits with and without a stack. -/
theorem test_meets_ControlTransfersAndExits_exits :
    ((spilling.gang 3).any (fun g => spilling.seatOk g && g.spills.all (fun y => y.slot != 1) && g.spills.any (fun y => y.slot == 0) &&
        (look g.splits 0).any fun sp => sp.stack.length == 4 && decide (sp.depth < 4)) = true) ∧
    (∃ c, base.ctx = some c ∧ c.ready {} = true ∧ base.outstanding c.gid c.active = false ∧ c.g.traps = [] ∧ c.sp.stack = []) ∧
    (∃ c, crowded.ctx = some c ∧ c.ready {} = true ∧ crowded.outstanding c.gid c.active = false ∧ c.g.traps = [] ∧ c.g.spills = [] ∧ c.sp.stack ≠ []) ∧
    ∃ c, { base with reqs := [(1, { (default : Req) with gang := 3, mask := 1, stage := .sent })] }.ctx = some c ∧ c.ready {} = true ∧
      ({ base with reqs := [(1, { (default : Req) with gang := 3, mask := 1, stage := .sent })] } : State).outstanding c.gid c.active = true :=
  ⟨by decide +kernel, meets _ _ (by decide +kernel), meets _ _ (by decide +kernel), meets _ _ (by decide +kernel)⟩
/-- EXIT in the handler: of all lanes and of half; with a pending split, with a saved stack, and with neither. -/
theorem test_meets_ControlTransfersAndExits_traps : ∀ m ∈ ([0xFFFFFFFF, 0xFFFF] : List Mask), ∀ p ∈ [none, some ((0x14 : Word), (0xFF : Mask))], ∀ v ∈ [[], [(⟨0x60, 1⟩ : StackEntry)]],
    let s := onSplit (fun x => { x with mask := m }) (onGang (fun g => { g with traps := g.traps.map fun x => (x.1, { x.2 with pending := p, saved := some v }) }) handling)
    ∃ c, s.ctx = some c ∧ c.ready {} = true ∧ s.outstanding c.gid c.active = false ∧ c.sp.stack = [] ∧ c.g.spills = [] ∧ c.g.traps.length = 1 ∧
      (look c.g.traps 1).any (fun r => r.pending == p && r.saved == some v && c.active &&& ~~~r.lanes == 0 && (r.lanes &&& ~~~c.active == 0) == (m == 0xFFFFFFFF)) = true := by
  intro m h p hp v hv
  have h2 : m = 0xFFFFFFFF ∨ m = 0xFFFF := by simpa using h
  have h3 : p = none ∨ p = some (0x14, 0xFF) := by simpa using hp
  have h4 : v = [] ∨ v = [⟨0x60, 1⟩] := by simpa using hv
  obtain rfl | rfl := h2 <;> obtain rfl | rfl := h3 <;> obtain rfl | rfl := h4 <;> exact meets _ _ (by decide +kernel)

/-- Fast and slow reads of each privilege, the writable registers of each mode, and PSNAP. -/
theorem test_meets_ControlRegisters :
    (∃ c, base.ctx = some c ∧ (∀ i ∈ ([0, 8, 9, 0x0B] : List Nat), crListed i = true ∧ c.ready { priv := crMode i, dsts := [.v 63 1] } = true ∧
      c.ready { priv := crMode i, dsts := [.s 63 1] } = true) ∧ crSlow 0 = false ∧ crSlow 8 = true) ∧
    (∃ c, (inMode .h base).ctx = some c ∧ (∀ i ∈ ([0x101, 0x131, 0x201, 0x210] : List Nat), crListed i = true ∧ i < 0x300 ∧
      c.ready { priv := crMode i, dsts := [.v 63 1] } = true) ∧ crSlow 0x131 = true ∧
      (∀ i ∈ ([0x0B, 0x20, 0x101, 0x103, 0x107, 0x12F, 0x201, 0x210] : List Nat), (crWriter i).any (fun m =>
        c.ready { priv := if modeRank m < modeRank (crMode i) then crMode i else m, srcs := [.s 63 1 false] } && crValueOk i (c.sv 63)) = true)) ∧
    ∃ c, base.ctx = some c ∧ c.ready { wf := (32 : Reg) == 0 || (32 : Reg) == 16 || (32 : Reg) == 32, dsts := [.s 32 16] } = true :=
  ⟨meets _ _ (by decide +kernel), meets _ _ (by decide +kernel), meets _ _ (by decide +kernel)⟩

/-- The checks of MFCR and MTCR: an index that is not listed, a register no mode writes, one that H mode alone writes, and values with a reserved bit. -/
theorem test_meets_ControlRegisters_checks :
    (∃ c, base.ctx = some c ∧ c.MayTrap base ∧ (∀ i ∈ ([7, 0x1F, 0x48] : List Nat), crListed i = false ∧ modeRank (crMode i) ≤ modeRank c.sp.mode) ∧
      (∀ i ∈ ([0, 0x47] : List Nat), crWriter i = none ∧ modeRank (crMode i) ≤ modeRank c.sp.mode) ∧ crWriter 0x20 = some .s ∧ modeRank (crMode 0x20) ≤ modeRank c.sp.mode ∧
      modeRank c.sp.mode < modeRank .s) ∧
    (∃ c, (putS 1 0x100 (putS 2 0x41 (inMode .h base))).ctx = some c ∧ c.MayTrap (inMode .h base) ∧ crWriter 0x0B = some .u ∧ c.ready { priv := .u, srcs := [.s 1 1 false] } = true ∧
      2 ≤ (c.sv 1).toNat ∧ crWriter 0x101 = some .s ∧ crWriter 0x201 = some .h ∧ c.ready { priv := .h, srcs := [.s 2 1 false] } = true ∧ (c.sv 2).getLsbD 0 = true ∧
      (∀ i ∈ ([0x120, 0x12F] : List Nat), crWriter i = some .s) ∧ c.ready { priv := .s, srcs := [.s 1 1 false] } = true ∧ 2 ^ 8 ≤ (c.sv 1).toNat) :=
  ⟨meets _ _ (by decide +kernel), meets _ _ (by decide +kernel)⟩

/-- Loads through a c register and through each lane's own quad, at the last places in bounds; with an acquire outstanding, the wait. -/
def acquiring : State := { withData with reqs := [(1, { (default : Req) with gang := 3, lane := 0, mask := 1, acq := true, stage := .sent })] }
theorem test_meets_LoadsEmptyAndRequest :
    (∃ c, withData.ctx = some c ∧ c.loadWait = false ∧
      (∀ n ∈ [(1 : Nat), 2, 4], c.ready { wf := multiple n 60, srcs := .v 1 1 true .none :: quadSrc false 2 true, dsts := [.v 60 n] } = true) ∧
      c.ready { wf := multiple 1 63, srcs := .v 1 1 true .none :: quadSrc true 2 true, dsts := [.v 63 1] } = true ∧
      (∀ l < 32, c.live.getLsbD l = true → (∀ n ∈ [(4 : Nat), 8, 16], check15 (c.laneCap false 2 l) permR ((c.v 1 .none l).toNat + 63 * (n : Int)) n n = none) ∧
        check15 (c.laneCap true 2 l) permR ((c.v 1 .none l).toNat : Int) 16 16 = none ∧ check15 (c.laneCap true 2 l) permR ((c.v 1 .none l).toNat : Int) 1 1 = none) ∧
      c.ready { srcs := [.s 0 1 true, .c 2], dsts := [.s 63 1] } = true ∧ check15 (c.cv 2) permR ((c.sv 0).toNat : Int) 4 4 = none ∧
      c.ready { wf := quad 60, srcs := [.v 1 1 true .none, .c 2], dsts := [.v 60 4] } = true) ∧
    ∃ c, acquiring.ctx = some c ∧ c.loadWait = true ∧
      c.ready { wf := multiple 1 63, srcs := .v 1 1 false .none :: quadSrc false 2 false, dsts := [.v 63 1] } = true :=
  ⟨meets _ _ (by decide +kernel), meets _ _ (by decide +kernel)⟩

/-- R231's example: a BF16 matrix of 96 rows of 32; with ROW STRIDE 65 word 2 fails. -/
def goodShape : List Word := [0x1000, 0, 64, 32, 96, 0x00400020, 1, 0]
theorem test_shape_record : shapeBad goodShape = none ∧ shapeBad (goodShape.set 2 65) = some 2 := by decide +kernel
/-- The stores, with a shape record that passes its tests in s8 to s15, and one that fails. -/
theorem test_meets_StoresRequestAndKeepRegisters :
    (∃ c, withData.ctx = some c ∧ c.mustWait = false ∧ isHost (c.cv 2).flat = false ∧
      (∀ n ∈ [(1 : Nat), 2, 4], c.ready { wf := multiple n 60, srcs := .v 1 1 true .none :: .v 60 n false .none :: quadSrc true 2 true } = true) ∧
      (∀ l < 32, c.live.getLsbD l = true → (∀ n ∈ [(1 : Nat), 2, 4, 8, 16], check15 (c.laneCap true 2 l) permW ((c.v 1 .none l).toNat : Int) n n = none) ∧
        check15 (c.cv 2) (if (c.g.quadAt (c.vk 8) l).tag then permW ||| permSC else permW) ((c.v 1 .none l).toNat : Int) 16 16 = none ∧ (c.g.quadAt (c.vk 8) l).tag = true) ∧
      c.ready { wf := quad 8, srcs := [.v 1 1 true .none, .v 8 4 false .none, .c 2] } = true ∧ c.ready { srcs := [.v 63 1 false .none, .c 2] } = true) ∧
    (∃ c, acquiring.ctx = some c ∧ c.mustWait = true ∧ c.ready { wf := multiple 1 63, srcs := .v 1 1 false .none :: .v 63 1 false .none :: quadSrc false 2 false } = true) ∧
    (∃ c, withData.ctx = some c ∧ c.MayTrap withData ∧ c.ready { wf := multiple 8 8, srcs := [.s 0 1 false, .s 8 8 false, .c 2] } = true ∧ c.mustWait = false ∧
      check15 (c.cv 2) permW ((c.sv 0).toNat : Int) 32 32 = none ∧ (shapeBad ((List.range 8).map fun i => c.sv (8 + i))).isSome = true ∧
      shapeBad goodShape = none ∧ goodShape.length = 8) ∧
    ∃ c, (putC 3 (Cap.make 0x80000000000 0x1000 (permR ||| permW ||| permSC) 1 0 0 true) withData).ctx = some c ∧ c.MayTrap withData ∧ c.mustWait = false ∧ c.live ≠ 0 ∧
      c.ready { wf := quad 8, srcs := [.v 1 1 true .none, .v 8 4 false .none, .c 3] } = true ∧ isHost (c.cv 3).flat = true ∧ (c.cv 3).tag = true ∧ (c.cv 3).type = 0 :=
  ⟨meets _ _ (by decide +kernel), meets _ _ (by decide +kernel), meets _ _ (by decide +kernel), meets _ _ (by decide +kernel)⟩

/-- Lane 31 alone out of bounds, with a free entry for its split. -/
theorem test_meets_FailingLanesTrapAlone :
    let s := putV 1 (fun l => BitVec.ofNat 32 (0xE10 + 16 * l)) withData
    ∃ c, s.ctx = some c ∧ c.ready { wf := multiple 1 12, srcs := .v 1 1 false .none :: .v 12 1 false .none :: quadSrc false 2 false } = true ∧ c.mustWait = false ∧
      c.MayTrap s ∧ c.sp.run = .ready ∧ c.g.freeEntry = some 1 ∧ (let chk := fun l => check15 (c.laneCap false 2 l) permW ((c.v 1 .none l).toNat + 0 : Int) 4 4
      (maskOf fun l => c.live.getLsbD l && (chk l).isSome) = 0x80000000 ∧ (chk 31).map (·.1) = some 2) := meets _ _ (by decide +kernel)

/-- Distinct words, one word for all lanes, and CAS on a pair; two updates of one word by two lanes of one instruction. -/
theorem test_meets_AtomicsPutEveryUpdateInFlight : (∃ c, withData.ctx = some c ∧ c.mustWait = false ∧
    (∀ n ∈ [(1 : Nat), 2], ∀ a ∈ [(0 : Nat), 1], c.ready { wf := n != 2 || even 62, srcs := [.v a 1 false .none, .v 62 n false .none, .c 2], dsts := [.v 62 1] } = true) ∧
    (∀ l < 32, c.live.getLsbD l = true → check15 (c.cv 2) (permR ||| permW) ((c.v 1 .none l).toNat : Int) 4 4 = none ∧
      check15 (c.cv 2) permW ((c.v 0 .none l).toNat : Int) 4 4 = none)) ∧
    (∃ c, acquiring.ctx = some c ∧ c.mustWait = true) ∧
    let q : Req := { (default : Req) with inst := 7, gang := 3, mask := 1, acc := .atomic 0 1 0 true, addr := 0x280000, size := 4, stage := .sent }
    let r := { q with lane := 1, mask := 2 }
    look [(8, q), (9, r)] 9 = some r ∧ (8, q) ∈ [(8, q), (9, r)] ∧ q.acc.isAtomic = true ∧ r.acc.isAtomic = true ∧ q.inFlight = true ∧
      overlap q.addr q.size r.addr r.size = true := ⟨meets _ _ (by decide +kernel), meets _ _ (by decide +kernel), by decide +kernel⟩

/-- Offsets of every lane in the block's scratchpad; line 0 full, and empty; and each scratchpad atomic. -/
def padEmptied : State := onBlock (fun b => { b with padEmpty := [(0, true)] }) withData
theorem test_meets_ScratchpadAccesses :
    (∃ c, withData.ctx = some c ∧ c.ready { srcs := [.v 1 1 true .none], dsts := [.v 63 1] } = true ∧ c.mustWait = false ∧
      (∀ l < 32, c.live.getLsbD l = true → c.padCheck false ((c.v 1 .none l).toNat + 0 : Int) 4 = none ∧ c.padCheck false 0xFFFC 4 = none ∧
        (c.v 1 .none l).toNat < c.blk.padSize) ∧
      withData.emptyLines ((lanesOf c.live).map fun l => (c.padPlace false ((c.v 1 .none l).toNat : Int) 4).getD (0, 0)) 4 = [] ∧
      c.ready { srcs := [.v 1 1 true .none, .v 63 1 false .none] } = true ∧ c.ready { srcs := [.v 1 1 false .none] } = true ∧
      c.ready { wf := even 62, srcs := [.v 1 1 false .none, .v 62 2 false .none], dsts := [.v 62 1] } = true ∧ c.padWait = false ∧
      (∀ l < 32, ∀ m < 32, c.padPlace false ((c.v 1 .none l).toNat : Int) 4 = c.padPlace false ((c.v 1 .none m).toNat : Int) 4 → c.v 1 .none l = c.v 1 .none m) ∧
      (∀ l < 32, c.blk.padPoisoned (c.v 1 .none l).toNat 4 = false)) ∧
    (∃ c, padEmptied.ctx = some c ∧ c.ready { srcs := [.v 1 1 true .none], dsts := [.v 63 1] } = true ∧ c.mustWait = false ∧
      padEmptied.emptyLines ((lanesOf c.live).map fun l => (c.padPlace false ((c.v 1 .none l).toNat : Int) 4).getD (0, 0)) 4 ≠ [] ∧ c.padWait = false) ∧
    ∃ c, acquiring.ctx = some c ∧ c.padWait = true :=
  ⟨meets _ _ (by decide +kernel), meets _ _ (by decide +kernel), meets _ _ (by decide +kernel)⟩

/-- ATOMS of all lanes to one word in v4: at its first pass; with lanes 16 to 31 left, their registers empty; with the line empty; and behind the TLD of row 0 of tile 0
from the scratchpad. -/
def updating (left : Mask) (s : State) : State := onGang (fun g => if left = 0 then g else { g with vEmpty := [(62, left)] }) (onSplit (fun x => { x with only := left }) s)
theorem test_meets_ScratchpadAccesses_atomics :
    (∃ c, (updating 0 withData).ctx = some c ∧ (∀ op ∈ [(0 : Nat), 9], c.ready { wf := op != 9 || even 62, also := fun c => c.vOk 4 && c.vRange 62 (if op = 9 then 2 else 1), srcs := [.v 4 1 false .none, .v 62 (if op = 9 then 2 else 1) false .none], dsts := [.v 62 1] } = true) ∧ c.padWait = false ∧ c.padRead c.live [(2, 0)] 4 = false ∧
      (∀ l < 32, c.padCheck false ((c.v 4 .none l).toNat + 0 : Int) 4 = none ∧ c.padPlace false ((c.v 4 .none l).toNat + 0 : Int) 4 = some (2, 0)) ∧
      withData.emptyLines [(2, 0)] 4 = [] ∧ c.blk.padPoisoned 0 4 = false) ∧
    (∃ c, (updating 0xFFFF0000 padEmptied).ctx = some c ∧ c.sp.only = 0xFFFF0000 ∧ lanesOf c.live = (List.range 16).map (· + 16) ∧
      (∀ op ∈ [(0 : Nat), 9], c.ready { wf := op != 9 || even 62, also := fun c => c.vOk 4 && c.vRange 62 (if op = 9 then 2 else 1) } = true)) ∧
    (∃ c, padEmptied.ctx = some c ∧ padEmptied.emptyLines [(2, 0)] 4 = [(2, 0)] ∧ c.padWait = false ∧ c.padRead c.live [(2, 0)] 4 = false) :=
  ⟨meets _ _ (by decide +kernel), meets _ _ (by decide +kernel), meets _ _ (by decide +kernel)⟩

/-- One access of lane 0 in flight. -/
def flying (acc : Access) (stage : Stage) (dests : List Dest) (addr size : Nat) : State := { withData with
  reqs := [(9, { inst := 8, core := 0, part := 0, gang := 3, lane := 0, mask := 1, acc := acc, addr := addr, size := size, cap := data, dests := dests, scope := 0,
                 acq := false, pc := 0x10, word := 0, pfx := 0, issued := [], gen := 0, seat := 0, stage := stage })] }
def parkedAt (w : Wake) (s : State) : State := onSplit (fun x => { x with run := .parked w }) s
theorem test_meets_WaitmemParksUntilLatched :
    (∃ c, withData.ctx = some c ∧ c.ready { srcs := [.v 1 1 false .none, .v 63 1 false .none, .c 2] } = true ∧ c.mustWait = false ∧ c.live ≠ 0 ∧
      (∀ l < 32, c.live.getLsbD l = true → check15 (c.cv 2) permR ((c.v 1 .none l).toNat : Int) 4 4 = none)) ∧
    (∃ c, { withData with cur := { withData.cur with pfx := some { Prefix.zero with predicate := 2 } } }.ctx = some c ∧ c.live = 0 ∧ c.mustWait = false ∧
      c.ready { srcs := [.v 1 1 false .none, .v 63 1 false .none, .c 2] } = true) ∧
    ∀ x ∈ [(Stage.waiting, true), (.replied [] false, false)], let s := parkedAt (.waitmem 0x14) (flying (.wait true 0) x.1 [] 0x280000 4)
      (s.gang 3).any (fun g => g.place == .resident && s.gangMoves 3 { g with stopped := false } && (look g.splits 0).any fun sp =>
        sp.run == .parked (.waitmem 0x14) && s.reqs.all fun r => r.2.waitOf 3 sp.mask && (r.2.stage == .waiting) == x.2) = true :=
  ⟨meets _ _ (by decide +kernel), meets _ _ (by decide +kernel), by decide +kernel⟩

/-- Whether the access 9 reaches its home slice (State.Reaches). -/
def reaches (s : State) : Bool := (look s.reqs 9).any fun r => decide (s.MayReach 9 r) && (!r.acc.reads || !s.poisoned r.addr r.size) &&
  match s.reachReq r with
  | .ok => true
  | _ => false
theorem test_meets_HomeSliceReads : (∀ acc ∈ [Access.load false true, .load true false, .prefetch, .wait true 0, .wait false 0],
    reaches (flying acc .sent [.v 1] 0x280FFC 4) = true) ∧ reaches (flying (.loadCap true) .page [.v 8, .v 9, .v 10, .v 11] 0x280FF0 16) = true ∧
    isHost 0x280FF0 = false := by decide +kernel
theorem test_meets_HomeSliceWrites : (∀ acc ∈ [Access.store [1, 2, 3, 4], .atomic 9 1 2 true, .atomic 0 1 0 false], reaches (flying acc .sent [] 0x280000 4) = true) ∧
    (let s := flying (.store [1, 2, 3, 4]) .sent [] 0x280000 4
    (look s.reqs 9).any (fun r => s.storeGroup 9 r == [(9, r)]) = true) ∧
    let s := flying (.storeCap data) .sent [] 0x280010 16
    reaches s = true ∧ (look s.reqs 9).any (fun r => s.storeGroup 9 r == [(9, r)] && !isHost r.addr && r.addr % 16 == 0) = true := by decide +kernel
def waits : Reach → Bool
  | .wait _ => true
  | _ => false
/-- An access to an extent that nobody owns fails; one to a host page without a translation waits, a prefetch of one with and without a page
request for it too; two writers of a channel, and a reply of a slice; an extent change. -/
theorem test_meets_RejectionsAndExtentChanges :
    (∀ acc ∈ [Access.load false true, .prefetch], let s := flying acc .sent [.v 1] 0x5000000000 4
    (look s.reqs 9).any (fun r => decide (s.MayReach 9 r) && match s.reachReq r with
      | .fail _ _ => true
      | _ => false) = true) ∧
    (∀ acc ∈ [Access.store [0], .prefetch], let s := flying acc .sent [] 0x800000000000 1
    (look s.reqs 9).any (fun r => decide (s.MayReach 9 r) && waits (s.reachReq r) && s.pageReqs.isEmpty) = true) ∧
    (let s := { flying .prefetch .sent [] 0x800000000000 1 with pageReqs := [{ part := 0, page := 0x800000000, entry := 1, dies := [1] }] }
    (look s.reqs 9).any (fun r => decide (s.MayReach 9 r) && waits (s.reachReq r) && s.pageReqs.any fun x => x.part == r.part && x.page == r.addr / 4096) = true) ∧
    (let s := flying (.store [1, 2, 3, 4]) .sent [] 0x280000 4
    s.unitWaits (s.homeSlice 0x280000) 0 false = true ∧ s.homeSlice 0x280000 < 128 ∧ 0 ∉ (lookD [] s.raised (s.homeSlice 0x280000)).filter fun w => s.unitWaits (s.homeSlice 0x280000) w true) ∧
    (let s := flying (.load false true) (.replied [7] false) [.v 63] 0x280000 4
    s.replyWaits 0 (s.homeSlice 0x280000) = true ∧ s.homeSlice 0x280000 ∉ (lookD [] s.raised 128).filter fun w => s.replyWaits 0 w) ∧
    ∀ seen ∈ [[], [((3 : Nat), (1 : Nat))]], let s : State := { withData with changing := [7, 8], extents := put 0 withData.extents 7 0xC000000100000000, reqs := [(9, { (default : Req) with gang := 3, mask := 1, acc := .store [0], addr := 7 * 0x200000, size := 1, stage := .sent, seen := seen })] }
    7 ∈ s.changing ∧ extState (s.extent 7) = 3 ∧ (s.reqs.all fun x => x.2.inFlight && (x.2.seen == []) == (seen == []) && (extentsOf x.2.addr x.2.size).contains 7) = true := by decide +kernel
theorem test_meets_RepliesFillTheirRegisters : ∀ gen ∈ [(0 : BitVec 4), 1],
    let s := { flying (.load false true) (.replied [7, 8] false) [.v 63, .s 63] 0x280000 8 with cores := set withData.cores 0 { withData.core 0 with ctxgen := [(0, gen)] } }
    (look s.reqs 9).any (fun r => r.stage == .replied [7, 8] false && decide (r.dests.Nodup) && r.dests.length == 2 && s.replyOutranked r == false && (s.gang r.gang).any fun g =>
      (lookD 0 (s.core r.core).ctxgen r.seat == r.gen) == (gen == 0) && g.place == .resident && (s.core (s.coreOf g)).occ == some (s.partOf g)) = true := by
  decide +kernel
theorem test_meets_RejectedLaneTrapsLate : let s := flying (.store [0]) (.rejected 5 0x280000) [.v 63] 0x280000 1
    s.reqs.length = 1 ∧ (look s.reqs 9).any (fun r => r.lane == 0 && (s.gang r.gang).any fun g => s.gangMoves 3 g && s.seatOk g && (look g.traps 1).isNone &&
      g.splits.length == 1 && (look g.splits 0).any fun sp => sp.mask.getLsbD 0 && sp.run == .ready && sp.only == 0 && decide (sp.depth < 3) &&
        (s.block g.block).any fun b => (s.part b.part).isSome) = true := by decide +kernel

/-! Capabilities, barriers, the matrix engine -/

/-- c3 a capability sealed as type 4, s4 and s5 a range that fits, s6 and s7 one that does not, s8 and s9 the root of extent 1. -/
def deriving_ : State := putS 8 1 (putS 9 1 (putS 4 2 (putS 5 1 (putS 6 0x100 (putS 7 1 (putC 3 (Cap.make 0x28000 16 permR 1 0 4 true) (putC 4 (Cap.make 0x28000 16 (permR ||| permSEAL) 1 0 0 true) withData)))))))
theorem test_meets_CapabilityInstructions :
    (∃ c, deriving_.ctx = some c ∧ c.MayTrap deriving_ ∧ c.sp.mode = .u ∧ (∀ n ∈ ([{ srcs := [.c 2] }, { wf := even 4, srcs := [.s 4 2 false, .c 15] }, { srcs := [.s 4 1 false, .c 0] },
        { k2 := false, srcs := [.s 63 1 false, .c 2] }, { wf := quad 8, srcs := (List.range 4).map fun i => .cross (8 + i) false fun c _ => lowest c.active },
        { srcs := [.c 2], dsts := [.s 63 1] }, { srcs := [.c 2, .c 15], dsts := [.s 63 1] }, { wf := even 62, srcs := [.c 2], dsts := [.s 62 2] },
        { wf := quad 60, srcs := [.c 2], dsts := [.v 60 4] }] : List Needs), c.ready n = true) ∧
      (csetbOf (c.cv 2) (c.sv 4) (c.sv 5)).toOption.isSome = true ∧ (csetbOf (c.cv 2) (c.sv 6) (c.sv 7)).toOption.isSome = false ∧
      (candpOf (c.cv 2) (c.sv 4)).toOption.isSome = true ∧ (candpOf (c.cv 3) 0).toOption.isSome = false ∧ (csealOf (c.cv 4) 1).toOption.isSome = true ∧
      (cdelegOf (c.cv 4) 7).toOption.isSome = true ∧ (cunsealOf deriving_ c.part (c.cv 3)).toOption.isSome = true ∧
      (cunsealOf deriving_ c.part (c.cv 2)).toOption.isSome = false) ∧
    ∃ c, (inMode .s deriving_).ctx = some c ∧ c.MayTrap (inMode .s deriving_) ∧ c.sp.mode ≠ .u ∧ c.ready { priv := .s, wf := even 8, srcs := [.s 8 2 false] } = true ∧
      (crootOf (inMode .s deriving_) c.part (c.sp.mode == .h) (c.sv 8) (c.sv 9)).toOption.isSome = true :=
  ⟨meets _ _ (by decide +kernel), meets _ _ (by decide +kernel)⟩
/-- Each clause of the derivations' fields and causes: no tag, other types, ranges inside and past the end, permissions, the host window, colours, states, and
CROOT's roots of extents, of host memory and of the flue. -/
theorem test_meets_CapabilityInstructions_derivations :
    let owner := Cap.make 0x28000 16 (permR ||| permSEAL) 1 0 0 true
    let sealed := Cap.make 0x28000 16 permR 1 0 4 true
    let slots := Cap.make 16 8 (permR ||| permW) 1 0 3 true
    let at_ := fun (x : BitVec 64) (s : State) => { s with extents := set s.extents 1 x }
    (Cap.null.tag = false ∧ data.tag = true ∧ data.type = 0 ∧ slots.type = 3 ∧ sealed.type = 4) ∧
    ((data.len : Int) < 0 + 0x101 * 16 ∧ (data.len : Int) - 0x101 * 16 < 0 ∧ (0 : Int) + 0x100 * 16 ≤ data.len ∧ (slots.len : Int) < 1 + 8 ∧ (7 : Int) + 1 ≤ slots.len) ∧
    (data.perm.getLsbD 6 = false ∧ owner.perm.getLsbD 6 = true ∧ isHost owner.flat = false ∧ isHost (Cap.make 0x80000000000 16 permSEAL 1 0 0 true).flat = true) ∧
    (sealed.colour = loadPart.colour ∧ sealed.colour ≠ { loadPart with colour := 2 }.colour ∧ sealed.flat / 2 ^ 21 = 1 ∧
      (extState (deriving_.extent 1) = 1 ∨ extState (deriving_.extent 1) = 2) ∧ extGen (deriving_.extent 1) = sealed.gen ∧
      extState ((at_ 0 deriving_).extent 1) ≠ 1 ∧ extState ((at_ 0 deriving_).extent 1) ≠ 2) ∧
    ((0x80000000 : Word).getLsbD 31 = true ∧ (0x20000001 : Word).getLsbD 29 = true ∧ (0x20000001 : Word).extractLsb' 8 10 = 0 ∧ (0x20000100 : Word).extractLsb' 8 10 ≠ 0 ∧
      (0x60000000 : Word).getLsbD 30 = true ∧ (0x00040000 : Word).extractLsb' 18 11 ≠ 0 ∧ 196608 < 196607 + (2 : Word).toNat) ∧
    ((crootOf deriving_ loadPart false 1 1).toOption.isSome = true ∧ (crootOf deriving_ { loadPart with colour := 7 } false 1 1).toOption.isSome = false ∧
      (crootOf deriving_ { loadPart with colour := 7 } true 1 1).toOption.isSome = true ∧ (crootOf (at_ 0 deriving_) loadPart true 1 1).toOption.isSome = false ∧
      (crootOf (at_ (deriving_.extent 1 + 0x10000) deriving_) loadPart true 1 2).toOption.isSome = false) := by decide +kernel
theorem test_meets_DerivedCapabilitiesNeverExceed : data.type ≠ 3 ∧ data.flat + data.len ≤ 2 ^ 48 ∧ (csetbOf data 0 0xFFFFFFFF).toOption.isSome = true ∧
    (cdelegOf (Cap.make 0x28000 16 (permR ||| permSEAL) 1 0 0 true) 9).toOption.isSome = true ∧ (cunsealOf deriving_ loadPart (Cap.make 0x28000 16 permR 1 0 4 true)).toOption.isSome = true ∧
    (crootOf deriving_ loadPart false 1 18).toOption.isSome = true ∧ (1 : Word).getLsbD 31 = false ∧ (1 : Word).getLsbD 29 = false ∧
    (let k := Cap.make 16 8 (permR ||| permW) 1 0 3 true
    k.type = 3 ∧ k.base + k.len ≤ 2 ^ 44 ∧ (csetbOf k 7 1).toOption.isSome = true) := by decide +kernel

/-- Barriers of the three levels that a block of one gang holds, with all lanes arriving, and with half of them. -/
def half : State := onSplit (fun x => { x with mask := 0xFFFF }) base
def barrierOf (s : State) (l i : Nat) (p : Barrier → Bool) : Bool := (s.gang 3).any fun g => (s.barRef 3 g l i).any fun r => (s.barGet r).any p
theorem test_meets_BarrierInstructions :
    (∃ c, base.ctx = some c ∧ c.sp.run = .ready ∧ (0, BitVec.allOnes 32) ∈ unitsOfGang c.blk.hdr.compat ∧ c.active &&& ~~~(BitVec.allOnes 32) = 0 ∧
      base.openFor c.gid c.active = false ∧ rising base.gangs = true ∧ ~~~c.g.exited &&& BitVec.allOnes 32 ≠ 0 ∧ (∀ x ∈ [(0#2, 0#4), (1#2, 15#4), (2#2, 15#4)],
        c.ready { wf := barName x.1 x.2, also := fun c => c.hasBar x.1.toNat x.2.toNat, dsts := [.s 63 1] } = true ∧
        barrierOf base x.1.toNat x.2.toNat (fun b => !b.error && b.phase == lookD false c.g.recorded (barKey x.1.toNat x.2.toNat 0)) = true ∧
        (lookD 0 c.g.arriving (barKey x.1.toNat x.2.toNat 0) ||| c.active) &&& (~~~c.g.exited &&& BitVec.allOnes 32) = ~~~c.g.exited &&& BitVec.allOnes 32)) ∧
    (∃ c, half.ctx = some c ∧ c.ready { wf := barName 1 0, also := fun c => c.hasBar 1 0 } = true ∧ half.openFor c.gid c.active = false ∧
      (lookD 0 c.g.arriving (barKey 1 0 0) ||| c.active) &&& (~~~c.g.exited &&& BitVec.allOnes 32) ≠ ~~~c.g.exited &&& BitVec.allOnes 32) ∧
    (∃ c, acquiring.ctx = some c ∧ acquiring.openFor c.gid c.active = true) ∧
    (∃ c, base.ctx = some c ∧ rising base.gangs = true ∧ barrierOf base 1 0 (fun b => let b' := { b with arr := (b.arr + 1) % 2 ^ 32 }.settle
      b'.error || b.phase != b'.phase) = true) ∧
    (∃ c, half.ctx = some c ∧ c.ready { wf := barName 1 0, also := fun c => c.hasBar 1 0, dsts := [.s 63 1] } = true ∧ half.openFor c.gid c.active = false ∧
      ~~~c.g.exited &&& BitVec.allOnes 32 ≠ 0 ∧ (lookD 0 c.g.arriving (barKey 1 0 0) ||| c.active) &&& (~~~c.g.exited &&& BitVec.allOnes 32) ≠ ~~~c.g.exited &&& BitVec.allOnes 32 ∧
      barrierOf half 1 0 (fun b => !b.error && lookD false c.g.recorded (barKey 1 0 0) == b.phase) = true ∧ c.g.splits.length = 1) ∧
    (∃ c, (onBlock (fun b => { b with bars := set b.bars 0 (Barrier.fresh 2) }) base).ctx = some c ∧
      barrierOf (onBlock (fun b => { b with bars := set b.bars 0 (Barrier.fresh 2) }) base) 1 0 (fun b => let b' := { b with arr := (b.arr + 1) % 2 ^ 32 }.settle
        !b'.error && b.phase == b'.phase) = true) ∧
    ∃ c, (onBlock (fun b => { b with bars := set b.bars 0 { Barrier.fresh 2 with phase := true } }) base).ctx = some c ∧ lookD false c.g.recorded (barKey 1 0 0) = false ∧
      barrierOf (onBlock (fun b => { b with bars := set b.bars 0 { Barrier.fresh 2 with phase := true } }) base) 1 0 (·.phase) = true :=
  ⟨meets _ _ (by decide +kernel), meets _ _ (by decide +kernel), meets _ _ (by decide +kernel), meets _ _ (by decide +kernel), meets _ _ (by decide +kernel),
    meets _ _ (by decide +kernel), meets _ _ (by decide +kernel)⟩
/-- A split that waits at barrier 15 to write s63, which is full, or which a load of another split has emptied. -/
theorem test_meets_BarrierPhasesAndFences_waiters : ∀ full ∈ [true, false], ∀ sync ∈ [true, false],
    let s := parkedAt (.barrier 1 15 63 sync) (onGang (fun g => if full then g else g.emptyS 63) base)
    barrierOf s 1 15 (fun b => { b with arr := b.arr + 1 }.settle.count != b.count) = true ∧ (s.gang 3).any (fun g => g.compat s == false && g.sFull 63 == full &&
      (look g.splits 0).any fun sp => sp.run == .parked (.barrier 1 15 63 sync) && lookD false g.recorded (barKey 1 15 0) == false) = true := by decide +kernel
theorem test_meets_BarrierPhasesAndFences :
    (let b := Barrier.fresh 1
    b.arr < b.expArr ∧ (let b := { b with arr := 1, delSec := 2 }
      b.expArr ≤ b.arr ∧ b.expSec ≤ b.delSec ∧ b.error = false ∧ b.expSec < b.delSec) ∧ (1 : Word).msb = false ∧ (1 : Word).toNat ≠ 0 ∧ b.expSec + (2 ^ 32 - 1) < 2 ^ 32 ∧
      (0x80000000 : Word).msb = true ∧ (0x80000000 : Word).toNat = 2 ^ 31 ∧ 2 ^ 32 ≤ { b with expSec := 1 }.expSec + (0xFFFFFFFF : Word).toNat) ∧
    (∃ c, base.ctx = some c ∧ c.sp.run = .ready ∧ base.openFor c.gid c.active = false ∧ (∀ k < 4, c.fenceWaits 5 k = false) ∧ c.ready {} = true ∧
      c.ready { wf := even 62 && (barName 1 15 && (1#2) != 0), also := fun c => c.hasBar 1 15, srcs := [.s 62 2 false] } = true ∧
      c.ready { wf := (5#3) != 0 && (5#3).toNat < 6 } = true) ∧
    (∃ c, acquiring.ctx = some c ∧ acquiring.openFor c.gid c.active = true ∧ c.fenceWaits 1 3 = true ∧ c.ready { wf := (1#3) != 0 && (1#3).toNat < 6 } = true) ∧
    ∃ c, { base with reqs := [(1, { (default : Req) with gang := 3, mask := 1, acc := .store [0], addr := 0x800000000000, size := 1, stage := .sent })] }.ctx = some c ∧
      c.fenceWaits 5 1 = true ∧ c.fenceWaits 4 1 = false ∧ c.fenceWaits 5 0 = false :=
  ⟨by decide +kernel, meets _ _ (by decide +kernel), meets _ _ (by decide +kernel), meets _ _ (by decide +kernel)⟩

/-- t0 and t1 BF16 of 2 rows and 16 columns, t7 SB4 of 2 rows and 16 columns, bank 15 allocated, and image operands in s8 and s9. -/
def tiled : State := putS 9 32 (onBlock (fun b => { b with tcfg := [(0, 0x00100201), (1, 0x00100201), (7, 0x00100205)], bankInfo := [(15, ⟨true, 0, 0⟩)] }) withData)
theorem test_meets_TileInstructions :
    (∃ c, tiled.ctx = some c ∧ c.ready { also := fun c => c.hasTile 7, srcs := [.s 63 1 false] } = true ∧ cfgOk c.k2 (c.sv 63) = true ∧ cfgOk c.k2 0x00C04005 = true ∧
      cfgOk c.k2 0x00D04005 = false ∧ c.MayTrap tiled ∧ (∀ m ∈ ([0, 2] : List CReg), c.ready { wf := even 8, also := fun c => c.hasTile 7, srcs := [.s 8 2 false, .c m.toNat fun c => imageSpace m (c.sv 9) == 0] } = true) ∧ c.cfg 6 = 0 ∧
      (∀ k ∈ [(0 : Nat), 7], (c.tileChecks 2 (c.cfg k) permR (c.sv 8).toNat (c.sv 9).toNat (imageSpace 2 (c.sv 9))).isNone = true ∧
        (c.tileChecks 2 (c.cfg k) permW (c.sv 8).toNat (c.sv 9).toNat (imageSpace 2 (c.sv 9))).isNone = true ∧
        (c.tileChecks 0 (c.cfg k) permW (c.sv 8).toNat (2 ^ 31 + 32) (imageSpace 0 0x80000020)).isNone = true ∧
        c.blk.tileFull k = true ∧ c.tileUnread k = false) ∧ c.loadWait = false ∧ c.mustWait = false ∧ c.padWait = false ∧ c.padRead c.active [(2, 0)] 32 = false ∧ imageSpace 2 (c.sv 9) = 0 ∧ imageSpace 0 0x80000020 = 1 ∧ imageSpace 2 0x80000020 = 2 ∧
      c.padPlace false 0x20 32 = some (2, 0x20) ∧ c.blk.tileHit 0 (c.cfg 0) = false) ∧
    (∃ c, (onBlock (fun b => { b with tileBad := [(16, true)] }) tiled).ctx = some c ∧ c.blk.tileHit 0 (c.cfg 0) = true ∧ c.mustWait = false) ∧
    (∃ c, (onBlock (fun b => { b with tileEmpty := [(0, true)] }) tiled).ctx = some c ∧ c.blk.tileFull 0 = false) ∧
    ∃ c, { tiled with reqs := acquiring.reqs }.ctx = some c ∧ c.loadWait = true ∧ c.mustWait = true ∧ c.padWait = true :=
  ⟨meets _ _ (by decide +kernel), meets _ _ (by decide +kernel), meets _ _ (by decide +kernel), meets _ _ (by decide +kernel)⟩
/-- MMAQ's k range in s4 to s7, at the lowest bias; MMA.S's weights through c5 of permission MS. -/
def multiplying : State := putS 5 16 (putS 6 (-64) (putS 7 1 (putS 11 0x00020040 (putC 5 { Cap.make 0x28000 0x1000 permMS 1 0 0 true with tag := true } tiled))))
theorem test_meets_MatrixInstructionsEnterTheEngine : ∃ c, multiplying.ctx = some c ∧ c.MayTrap multiplying ∧
    c.ready { coll := true, also := fun c => c.hasTile 0 && c.hasTile 1 && c.hasBank 15 } = true ∧ c.cfg 2 = 0 ∧ c.cfg 0 ≠ 0 ∧ matFormat (cfgFormat (c.cfg 0)) = true ∧
    cfgFormat (c.cfg 0) = cfgFormat (c.cfg 1) ∧ cfgCols (c.cfg 0) = cfgCols (c.cfg 1) ∧ (c.blk.bankI 0).alloc = false ∧ (c.blk.bankI 15).alloc = true ∧
    c.blk.tileFull 0 = true ∧ c.blk.tileFull 1 = true ∧
    c.ready { coll := true, k2 := false, also := fun c => c.hasTile 0 && c.hasTile 1 && c.hasBank 15, srcs := [.s (4 * 1) 4 false] } = true ∧
    (c.sv 4).toNat % 16 = 0 ∧ 0 < (c.sv 5).toNat ∧ (c.sv 5).toNat % 16 = 0 ∧ (c.sv 4).toNat + (c.sv 5).toNat ≤ cfgCols (c.cfg 0) ∧ (c.sv 6).toInt = -64 ∧ (c.sv 7).toNat < 2 ∧
    c.ready { coll := true, wf := even 10, also := fun c => c.hasTile 0 && c.hasBank 15, srcs := [.s 10 2 false, .c 5] } = true ∧ (c.sv 11).extractLsb' 7 9 = 0 ∧
    (let n := ((c.sv 11).extractLsb' 0 7).toNat
    let p := 16 * ((c.sv 11).extractLsb' 16 16).toNat
    n = 64 ∧ rowBytes (c.cfg 0) ≤ p ∧ ∀ g ∈ imageRegions (c.cfg 0) n (c.sv 10).toNat p, check14 (c.cv 5) 0 permMS g.1 g.2 = none) ∧ isHost (c.cv 5).flat = false ∧
    c.mustWait = false := meets _ _ (by decide +kernel)
/-- Bank 15 allocated, bank 14 not, bank 13 with a fault; row and column 63 in s12 and s13. -/
def accumulating : State := putS 12 63 (putS 13 63 (onBlock (fun b => { b with bankInfo := [(13, ⟨true, 5, 0x280000⟩), (15, ⟨true, 0, 0⟩)] }) tiled))
theorem test_meets_AccumulatorInstructions : ∃ c, accumulating.ctx = some c ∧ c.MayTrap accumulating ∧ (∀ d ∈ [(13 : Nat), 14, 15], c.bankBusy d = false ∧
      c.ready { also := fun c => c.hasBank d } = true ∧ c.ready { also := fun c => c.hasBank d, srcs := [.s (4 * 3) 2 false], dsts := [.v 63 1] } = true ∧
      c.ready { also := fun c => c.hasBank d, srcs := [.s (4 * 3) 2 false, .v 63 1 false .none] } = true) ∧ (c.sv 12).toNat < 64 ∧ (c.sv 13).toNat < 64 ∧
    (c.blk.bankI 15).alloc = true ∧ (c.blk.bankI 15).cause = 0 ∧ (c.blk.bankI 14).alloc = false ∧ (c.blk.bankI 13).alloc = true ∧ (c.blk.bankI 13).cause ≠ 0 ∧
    c.ready { k2 := false, also := fun c => c.hasBank 15 && c.hasTile 7 } = true ∧ c.cfg 7 ≠ 0 ∧ isSb (cfgFormat (c.cfg 7)) = true ∧ cfgCols (c.cfg 7) ≤ 64 ∧
    cfgRows (c.cfg 7) ≤ 64 ∧ c.tileUnread 7 = false ∧ c.blk.tileFull 7 = true := meets _ _ (by decide +kernel)
/-- A band of 8 rows and 8 columns from row 56 on, to c2 or to the block's own scratchpad, with no barrier and with block barrier 15. -/
def draining (w3 : Word) : State := putS 16 56 (putS 17 0x00080008 (putS 18 0 (putS 19 w3 tiled)))
theorem test_meets_DrainsTakeTheBand : ∀ w ∈ ([(0x00020040, 2), (0x0002001F, 2), (0x000200C0, 0)] : List (Word × CReg)), ∃ c, (draining w.1).ctx = some c ∧
    c.ready { wf := quad 16, also := fun c => c.hasBank 15, srcs := [.s 16 4 false, .c w.2.toNat fun c => (c.sv 19).extractLsb' 7 2 == 0] } = true ∧ (c.sv 16).toNat = 56 ∧
    (c.sv 17).extractLsb' 23 9 = 0 ∧ (c.sv 17).extractLsb' 7 9 = 0 ∧ (c.sv 19).extractLsb' 9 7 = 0 ∧ ((c.sv 17).extractLsb' 0 7).toNat = 8 ∧
    ((c.sv 17).extractLsb' 16 7).toNat = 8 ∧ 16 * ((c.sv 19).extractLsb' 16 16).toNat = 32 ∧ ((c.sv 19).extractLsb' 7 2).toNat = (if w.2 = 0 then 1 else 0) ∧
    ((c.sv 19).getLsbD 6 = true ∧ (c.sv 19).extractLsb' 0 6 = 0 ∨ (c.sv 19).getLsbD 6 = false ∧ ((c.sv 19).extractLsb' 4 2).toNat = 1 ∧ c.hasBar 1 ((c.sv 19).extractLsb' 0 4).toNat = true) ∧
    (∀ r < 8, c.regionCheck ((c.sv 19).extractLsb' 7 2).toNat (c.cv w.2.toNat) permW (r * 32) 32 = none) ∧ (draining w.1).drains = [] ∧ c.bankBusy 15 = false ∧ c.mustWait = false := by
  intro w h
  have h2 : w = (0x00020040, 2) ∨ w = (0x0002001F, 2) ∨ w = (0x000200C0, 0) := by simpa using h
  obtain rfl | rfl | rfl := h2 <;> exact meets _ _ (by decide +kernel)
/-- Elements, products and groups of each clause: finite sums of either sign and of zeros, infinities, and NaN. -/
theorem test_meets_MatrixEngineReadsAndUpdates_elements :
    (0xFF00 : Nat) < 2 ^ 16 ∧ (31 : Nat) < 2 ^ (4 + 1) ∧ (FVal.nan ∈ [FVal.nan, .inf true]) ∧ (FVal.inf true ∈ [FVal.inf true, .inf false] ∧ FVal.inf false ∈ [FVal.inf true, .inf false]) ∧
    (FVal.nan ∉ [FVal.inf true, .fin false 3 2] ∧ FVal.inf true ∈ [FVal.inf true, .fin false 3 2] ∧ FVal.inf false ∉ [FVal.inf true, .fin false 3 2]) ∧
    groupSum 0 false [.fin false 3 2, .fin true 1 0] = 0x41300000 ∧ groupSum 0 true [.fin false 3 2, .fin true 12 0] = 0x80000000 ∧ f32.isNan 0x7FC00000 = true ∧
    f32.isNan 0x3F800000 = false ∧ elemVal 1 0 0x7FC0 = .nan ∧ macElem { (default : MatrixOp) with cfgA := 1, cfgB := 1, kCount := 2 } 0x3F800000 [0x4000, 0x3F80] [0x3F80, 0x3F80] = 0x40800000 := by
  decide +kernel

/-! The matrix engine, the flue, queues and engines -/

def okay : Reach → Bool
  | .ok => true
  | _ => false
def fails : Reach → Bool
  | .fail _ _ => true
  | _ => false

/-- MMA of tiles 0 and 1 into bank 15, and MMA.S with 2 rows of weights at flat 0x280000; then with both operands read. -/
def mma (weights : Option (Cap × Nat × Nat × Nat)) : MatrixOp :=
  { id := 7, core := 0, part := 0, gang := 3, block := 2, bank := 15, ta := 0, tb := 1, cfgA := 0x00100201, cfgB := 0x00100201, kFirst := 0, kCount := 16, bias := 0,
    neg := false, weights := weights, started := false, rowsA := [], rowsB := [], fault := none }
def engineAt (op : MatrixOp) : State := { tiled with matrix := [op] }
theorem test_meets_MatrixEngineReadsAndUpdates :
    (∀ w ∈ [none, some (Cap.make 0x28000 0x1000 permMS 1 0 0 true, 0, 32, 2), some (Cap.make 0x28000 0x1000 permMS 1 9 0 true, 0, 32, 2)],
      let s := engineAt (mma w)
      (s.matrix.find? fun o => o.core == 0 && !o.started) = some (mma w) ∧ (s.core 0).occ = some 0 ∧ ((mma w).head.all fun a => !s.outranked 0 a) = true ∧ (s.weightsWait (mma w)).isNone = true ∧ (mma w).fault = none ∧
      (s.block 2).any (fun b => b.tileFull 0 && b.tileFull 1) = true ∧ (s.part 0).any (fun p => match w with
        | some w => (s.streamed (mma w) p w).toOption.isSome == (w.1.gen == 0)
        | none => true) = true ∧ (s.block 2).any (fun b => !b.tileHit 0 0x00100201 && !b.tileHit 1 0x00100201) = true) ∧
    ((onBlock (fun b => { b with tileBad := [(1024, true)] }) (engineAt (mma none))).block 2).any (fun b => b.tileHit 1 0x00100201 && b.tileFull 1) = true ∧
    ∀ x ∈ [((none : Option (Nat × Nat)), 15), (some (5, 0x280000), 15), (none, 13)],
      let op := { mma none with started := true, rowsA := [[0x3F80], [0x4000]], rowsB := [[0x3F80]], fault := x.1, bank := x.2 }
      let s := onBlock (fun b => { b with bankInfo := [(13, ⟨true, 5, 0x280000⟩), (15, ⟨true, 0, 0⟩)] }) (engineAt op)
      (s.matrix.find? fun o => o.core == 0) = some op ∧ (s.block 2).any (fun b => (b.bankI op.bank).alloc && ((b.bankI op.bank).cause == 0) == (x.2 == 15)) = true := by
  decide +kernel

/-- Tile 0's load at its last row, and at its first from a stale capability; tile 7's, of SB4, at its scale area; a drain's last sector, and its first with a stale
capability, to memory, and to the scratchpad. -/
def tiling (tile : Nat) (cfg : Word) (gen : BitVec 16) (next : Nat) : TileOp :=
  { core := 0, part := 0, gang := 3, block := 2, tile := tile, cfg := cfg, space := 0, cap := Cap.make 0x28000 0x1000 permR 1 gen 0 true, offset := 0, pitch := 128,
    mask := BitVec.allOnes 32, pc := 0x10, word := 0, pfx := 0, issued := [], next := next, fault := none }
def drained (space : Nat) (offset : Nat) (gen : BitVec 16) (next : Nat) : Drain :=
  { core := 0, part := 0, gang := 3, block := 2, bank := 15, first := 56, rows := 2, cols := 8, space := space, cap := Cap.make 0x28000 0x1000 permW 1 gen 0 true, offset := offset,
    pitch := 32, add := true, barrier := some (.block 2 15), data := List.replicate 16 1, next := next, fault := none, mask := 1, pc := 0x10, word := 0, issued := [] }
theorem test_meets_TileFillsAndDrainSectors :
    (∀ x ∈ [((0 : Nat), (0x00100201 : Word), (0 : BitVec 16), (0 : Nat)), (0, 0x00100201, 0, 1), (0, 0x00100201, 9, 0), (7, 0x00100205, 0, 1), (7, 0x00100205, 0, 2)],
      let op := tiling x.1 x.2.1 x.2.2.1 x.2.2.2
      let s := { tiled with tileOps := [(7, op)] }
      (s.core 0).occ = some 0 ∧ op.fault = none ∧ cfgRows x.2.1 = 2 ∧ scalesPerRow x.2.1 ≤ 16 ∧ cfgCols x.2.1 * elemBits (cfgFormat x.2.1) ≤ 1024 ∧
      ((imageRegions x.2.1 (cfgRows x.2.1) 0 128)[x.2.2.2]?).any (fun r => !s.outranked 0 (op.cap.at r.1) && !s.bytesBehind 3 op.mask 7 (op.cap.at r.1) r.2 false &&
        match s.readSpace 0 0 2 0 op.cap r.1 r.2 with
        | .bytes bs => x.2.2.1 == 0 && bs.length == r.2 && decide (r.2 ≤ 128)
        | .fail _ _ => x.2.2.1 == 9
        | _ => false) = true) ∧
    (let s := { tiled with tileOps := [(7, tiling 0 0x00100201 0 0)], reqs := [(1, { (default : Req) with gang := 3, mask := 1, acc := .store [0], addr := 0x280000, size := 1, stage := .sent })] }
    s.bytesBehind 3 (BitVec.allOnes 32) 7 0x280000 32 false = true) ∧
    (∀ x ∈ [((0 : BitVec 16), 0), (0, 1), (9, 0)], let d := drained 0 0 x.1 x.2
      let s := { tiled with drains := [(7, d)] }
      d.next < d.sectors ∧ (s.core 0).occ = some 0 ∧ s.drainWaits 7 d = false ∧ s.outranked 0 0x280000 = false ∧ s.drainBehind 7 d (d.cap.at (d.offsetOf d.next)) = false ∧ s.poisoned (d.cap.at (d.offsetOf d.next)) 32 = false ∧
      (s.barGet (.block 2 15)).isSome = true ∧ (if x.1 = 0 then okay else fails) (s.reach 0 0 1 x.1 true (d.cap.at (d.offsetOf d.next)) 32) = true) ∧
    (∀ fault ∈ [some ((5 : Nat), (0x280000 : Nat)), some (255, 0)], ∀ bar ∈ [some (BarRef.block 2 15), none], let d := { drained 0 0 0 0 with fault := fault, barrier := bar }
      let s := { tiled with drains := [(7, d)] }
      d.next < d.sectors ∧ s.drainWaits 7 d = false ∧ (s.barGet (.block 2 15)).any (fun b => !b.error) = true) ∧
    (∀ x ∈ [((0 : Nat), true), (0x3FFE0, true), (0x3FFE1, false)], let d := drained 1 x.1 0 0
      let s := { tiled with drains := [(7, d)] }
      s.drainWaits 7 d = false ∧ (s.padPlace 2 false x.1 32 == some (2, x.1)) = x.2 ∧ (s.padPlace 2 false x.1 32).isNone = !x.2 ∧ s.padUnread 3 1 7 2 x.1 32 = false ∧ d.wall = 0 ∧
      (s.block 2).any (fun b => !b.padPoisoned x.1 32) = true) ∧
    (let s := { onBlock (fun b => { b with padPoison := [(0, true)] }) tiled with drains := [(7, drained 1 0 0 0)] }
    (s.block 2).any (fun b => b.padPoisoned 0 32) = true) ∧
    let s := { tiled with drains := [(7, { drained 1 0 0 0 with wall := 7 })], reqs := [(1, { (default : Req) with gang := 3, mask := 1, acc := .store [0], addr := 0x280000, size := 1, stage := .sent })] }
    s.openBefore 3 1 7 = true := by decide +kernel

/-- c6 the flue slots of the partition, the lane numbers modulo 4 in v2, zeros in v4 to v7; c7 memory of permission R and W. -/
def boarding : State := putC 7 data (putC 6 (Cap.make 0 4 (permR ||| permW) 1 0 3 true) (putV 2 (fun l => BitVec.ofNat 32 (l % 4)) (putV 3 (fun l => BitVec.ofNat 32 (16 * l)) withData)))
theorem test_meets_FlueInstructionsSendOperations :
    (∃ c, boarding.ctx = some c ∧ c.ready { wf := even 2, k2 := false, srcs := [.v 2 2 false .none, .c 6, .c 7] } = true ∧ c.live ≠ 0 ∧
      (∀ l < 32, flueCheck (c.cv 6) permW 1 (c.v 2 .none l).toNat = none ∧ flueCheck (c.cv 6) permR 1 (c.v 2 .none l).toNat = none ∧
        check15 (c.cv 7) permR ((c.v 3 .none l).toNat : Int) 16 16 = none ∧ check15 (c.cv 7) permW ((c.v 3 .none l).toNat : Int) 16 16 = none) ∧
      c.ready { wf := quad 60, k2 := false, srcs := [.v 2 1 false .none, .c 6], dsts := [.v 60 4] } = true ∧
      c.ready { k2 := false, srcs := [.v 2 1 false .none, .v 63 1 false .none, .c 6] } = true ∧ c.ready { k2 := false, srcs := [.c 6], dsts := [.s 63 1] } = true ∧
      check14 (c.cv 6) 3 permR 0 0 = none ∧
      (∀ x ∈ [(1, (0 : BitVec 3)), (1, 7), (2, 6), (2, 7), (4, 1), (4, 7)], c.ready { wf := (2 : BitVec 2) != 3 && multiple (if x.2 = 7 then 8 * x.1 else 4 * x.1) 32, k2 := false, srcs := [.v 0 1 false .none, .v 32 (if x.2 = 7 then 8 * x.1 else 4 * x.1) false .none, .c 6], dsts := [.v 32 (4 * x.1)] } = true ∧
        ∀ l < 32, flueCheck (c.cv 6) (permR ||| permW) x.1 (c.v 0 .none l).toNat = none)) ∧
    ∃ c, { boarding with cur := { boarding.cur with pfx := some { Prefix.zero with predicate := 2 } } }.ctx = some c ∧ c.live = 0 ∧
      c.ready { k2 := false, srcs := [.v 2 1 false .none, .v 63 1 false .none, .c 6] } = true :=
  ⟨meets _ _ (by decide +kernel), meets _ _ (by decide +kernel)⟩

/-- An operation of core 0's stop on slot 1, four clk after it was issued, its grate at the stop. -/
def riding (k : FlueKind) (state : BitVec 2) : State := { withData with
  clk := 128, flue := [(1, { Slot.vacant with state := state, data := 5 })],
  flueOps := [(9, { inst := 8, core := 0, part := 0, gang := 3, lane := 0, kind := k, slot := 1, colour := 1, cap := data, addr := 0x280000,
                    dests := match k with
                      | .cap _ _ _ | .peek => [.v 0, .v 1, .v 2, .v 3]
                      | _ => [],
                    ord := false, acq := false, rel := false, clk := 0, pc := 0x10, word := 0, pfx := 0, issued := [], gen := 0, fault := none })] }
def ridden (k : FlueKind) (state : BitVec 2) (p : State → FlueOp → Bool) : Bool := (look (riding k state).flueOps 9).any (p (riding k state))
theorem test_meets_FlueStopsApplyOperations_writes :
    (∀ x ∈ [(FlueKind.board (some 7), (0 : BitVec 2), none), (.alight false, 1, none), (.cap 1 0 [1, 2, 3, 4], 1, none), (.cap 1 7 [5, 0, 0, 0, 1, 2, 3, 4], 1, none),
        (.cap 1 7 [1, 2, 3, 4, 5, 6, 7, 8], 1, none), (.board (some 7), 1, some (56, 1)), (.alight false, 0, some (57, 1)), (.cap 1 0 [1, 2, 3, 4], 0, some (57, 1))],
      ridden x.1 x.2.1 (fun s o => !s.fluePassed.contains 0 && s.grateAt 0 == 0 && (s.gang 3).isSome && s.flueGrant 0 0 == some (9, o) && s.flueBad o == x.2.2 &&
        s.ownsSlot o.colour 1 && decide o.dests.Nodup && o.isWrite && s.flueOps.length == 1) = true) ∧
    (ridden (.cap 2 0 [1, 2, 3, 4, 5, 6, 7, 8]) 1 (fun s o => s.flueBad o == some (57, 2)) = true) ∧
    ridden .peek 1 (fun s o => ({ s with flue := [(1, { Slot.vacant with state := 1, poison := true })] } : State).flueBad o == some (20, 1) && s.flueBad { o with slot := 4096 } == some (4, 4096)) = true ∧
    ridden (.alight true) 2 (fun s o => o.away && o.fault == none && s.reqs.isEmpty) = true := by decide +kernel
theorem test_meets_FlueStopsApplyOperations_reads :
    (∀ x ∈ [(FlueKind.peek, (1 : BitVec 2), none), (.peek, 0, some (57, 1)), (.wait false 5, 1, none), (.wait true 5, 1, none), (.wait false 5, 0, some (57, 1))],
      ridden x.1 x.2.1 (fun s o => !s.fluePassed.contains 0 && stopOf o.core == 0 && o.slot / 4 == s.grateAt 0 && s.flueReady 9 o && s.flueBad o == x.2.2 && s.flueOps.length == 1 &&
        (s.core 0).occ == some o.part && (({ s with cores := [] } : State).core 0).occ != some o.part && (o.kind != .peek || (o.dests.length == 4 && decide o.dests.Nodup)) && (o.kind == .peek || o.dests == [])) = true) ∧
    ((riding .peek 1).slot 1).data.extractLsb' 0 32 = 5 := by decide +kernel

/-- QW's operand in s8 and s9 for the queues 0 to 2. -/
theorem test_meets_QueueWordWrites : ∃ c, tiled.ctx = some c ∧ ∀ q ∈ [(0 : BitVec 2), 1, 2], ∀ a ∈ [(8 : Reg), 62], c.ready { wf := q != 3 && even a, srcs := [.s a.toNat 2 false] } = true :=
  meets _ _ (by decide +kernel)
/-- MultiplyAdd: v1 to v3 full. -/
theorem test_meets_MultiplyAddWritesTheLowWord : ∃ c, withData.ctx = some c ∧ c.ready { srcs := [.v 1 1 false .none, .v 2 1 false .none, .v 3 1 false .none], dsts := [.v 63 1] } = true ∧
    c.live.getLsbD 31 = true := meets _ _ (by decide +kernel)
/-- Queue q of gang 3: its four words, written mask and results. -/
def queued (q : Nat) (x : QReg) (s : State) : State := onGang (fun g => { g with q := [(q, x)] }) s
def words (w : List (BitVec 64)) : QReg := { words := (List.range 4).map fun i => (i, w.getD i 0), written := 15, results := [] }
/-- FILL of 64 bytes at offset 0 of c2, COPY1D of 64 bytes within c2, COPYTILE (its shape in c2), and the same FILL with queue word 0 short of a length. -/
def fillW : List (BitVec 64) := [BitVec.ofNat 64 (4 * 2 ^ 58 + 2 ^ 57 + 2 * 2 ^ 40), 0, 0x1122334455667788, 64]
def copyW : List (BitVec 64) := [BitVec.ofNat 64 (2 ^ 58 + 2 ^ 57 + 2 * 2 ^ 40 + 2 * 2 ^ 36), 0x100, 0, 64]
def tileW : List (BitVec 64) := [BitVec.ofNat 64 (3 * 2 ^ 58 + 2 ^ 57 + 2 * 2 ^ 40 + 2 * 2 ^ 36 + 2 * 2 ^ 32), 0, 0, 2 ^ 32]
/-- The command under test, its gang and queue 0, with a block of memory for QGO_C in c7. -/
def ordering (x : QReg) : State := queued 0 x (putC 7 (Cap.make 0x28000 96 (permR ||| permLC) 1 0 1 true) withData)
/-- The code that QGO gives a command of queue 0. -/
def coded (s : State) (c : Ctx) (w : List (BitVec 64)) : Option Nat :=
  let e := c.command 0 w c.cv
  s.submitCode e 0 false false c.blk (.ok ())
/-- QSTAT of queue 0 with 16 records and of queue 3. -/
theorem test_meets_QueueCountsAreReported : ∃ c, (ordering { words fillW with results := List.replicate 16 0 }).ctx = some c ∧ c.ready { dsts := [.s 63 1] } = true ∧
    (c.g.queue 0).results.length ≤ 16 ∧ ((ordering { words fillW with results := List.replicate 16 0 }).running c.gid 0).length ≤ 16 ∧
    ((ordering { words fillW with results := List.replicate 16 0 }).core c.core).outbound.length ≤ 16 := meets _ _ (by decide +kernel)
/-- GATHER of two words into the scratchpad, their indices at the address, in queue 1. -/
def gatherW : List (BitVec 64) := [BitVec.ofNat 64 (0x10 * 2 ^ 58 + 2 ^ 57 + 2 ^ 46 + 2 * 2 ^ 36 + 3 * 2 ^ 32), 0x100, 0, BitVec.ofNat 64 (2 * 2 ^ 40)]
def gathering (aux : Nat) : State := queued 1 (words gatherW) (putC 3 (Cap.make aux 64 permR 1 0 0 true) withData)
theorem test_meets_QueueInstructions_gather : (∀ x ∈ [((0x28000 : Nat), true), (0x80000000000, false)], (gathering x.1).ctx.any (fun c => let e := c.command 1 gatherW c.cv
      c.ready { srcs := (List.range 16).map fun r => .c r fun c => c.goNames 1 r } && e.kind == 0x10 && e.dstSpace != 0 && (gathering x.1).submitCode e 1 false false c.blk (.ok ()) == none &&
        ((gathering x.1).indices e e.count).2.isSome == x.2) = true) ∧
    (∀ out ∈ [true, false], (ordering { words fillW with results := [0] }).ctx.any (fun c => c.ready { wf := even 62, dsts := [if out then .s 62 2 else .v 62 2] } && c.live == c.active && (c.g.queue 0).results == [0]) = true) ∧
    ({ ordering (words fillW) with reqs := [(1, { (default : Req) with gang := 3, mask := 1, lane := 32, acc := .record 0, stage := .waiting })] } : State).reqs.any (fun x => x.2.recordOf 3 0 (BitVec.allOnes 32)) = true := by
  decide +kernel
theorem test_meets_QueueInstructions :
    (∃ c, (ordering (words fillW)).ctx = some c ∧ c.ready {} = true ∧ c.ready { srcs := (List.range 16).map fun r => .c r fun c => c.goNames 0 r } = true ∧ (ordering (words fillW)).running c.gid 0 = [] ∧ (c.g.queue 0).results = [] ∧
      (ordering (words fillW)).openFor c.gid c.active = false ∧ c.MayTrap (ordering (words fillW)) ∧
      ((List.range 4).map fun i => lookD 0 (c.g.queue 0).words i) = fillW ∧ (c.command 0 fillW c.cv).kind = 4 ∧ (c.command 0 copyW c.cv).kind = 1 ∧
      coded (ordering (words fillW)) c fillW = none ∧ coded (ordering (words fillW)) c copyW = none ∧ coded (ordering (words fillW)) c (fillW.set 3 0) ≠ none ∧
      ((c.command 0 tileW c.cv).kind = 3 ∧ check14 (c.command 0 tileW c.cv).aux 0 permR (c.command 0 tileW c.cv).o1 32 = none ∧
        ((ordering (words fillW)).readShape c.gid c.core c.pid (c.command 0 tileW c.cv).aux (c.command 0 tileW c.cv).o1).2.any (·.toOption.isSome) = true) ∧
      (let x := c.cv 7
      x.tag = true ∧ x.type = 1 ∧ x.allows (permR ||| permLC) = true ∧ x.allows (permW ||| permX) = false ∧ x.len = 96 ∧ x.flat % 32 = 0 ∧
        okay ((ordering (words fillW)).reachFor c.gid c.core c.pid x.colour x.gen false x.flat 96) = true ∧ (ordering (words fillW)).poisoned x.flat 96 = false) ∧
      (c.cv 2).type ≠ 1 ∧ (c.cv 9).tag = false) ∧
    (∃ c, (ordering { words fillW with results := List.replicate 16 0, written := 1 }).ctx = some c ∧ 16 ≤ (c.g.queue 0).results.length ∧
      c.MayTrap (ordering { words fillW with results := List.replicate 16 0, written := 1 }) ∧
      (ordering { words fillW with results := List.replicate 16 0, written := 1 }).running c.gid 0 = [] ∧ c.live = c.active ∧
      c.ready {} = true ∧ c.ready { srcs := (List.range 16).map fun r => .c r fun c => c.goNames 0 r } = true) ∧
    (({ ordering { words fillW with results := List.replicate 15 0 } with engines := [(9, { (default : Engine) with gang := 3, queue := 0 })] } : State).running 3 0).length = 1 ∧
    (∀ host ∈ [true, false], let s := putC 2 (Cap.make (if host then 0x80000000000 else 0x28000) 64 permR 1 0 0 true) (ordering (words tileW))
      ∃ c, s.ctx = some c ∧ (c.g.queue 0).written = 0xF ∧ (let e := c.command 0 tileW c.cv
      (e.kind = 3 ∧ e.earlyCode 0 false false c.blk = none ∧ check14 e.aux 0 permR e.o1 32 = none ∧ e.aligned = true) ∧ (s.readShape c.gid c.core c.pid e.aux e.o1).2.isNone = host)) ∧
    (∃ c, (ordering { words fillW with written := 7 }).ctx = some c ∧ (c.g.queue 0).written ≠ 0xF ∧ (c.g.queue 0).results = [] ∧
      (ordering { words fillW with written := 7 }).openFor c.gid c.active = false) := by
  refine ⟨meets _ _ (by decide +kernel), meets _ _ (by decide +kernel), by decide +kernel, ?_, meets _ _ (by decide +kernel)⟩
  intro host _
  cases host <;> exact meets _ _ (by decide +kernel)

/-- A command of those words in queue 0 (2 for collectives) of gang 3, under id n. -/
def engine (w : List (BitVec 64)) (stage : EngineStage) : Engine :=
  { core := 0, part := 0, gang := 3, block := 2, queue := 0, words := w, src := data, dst := data, aux := data, stage := stage, row := 0, pos := 0, buf := [], lines := [],
    counter := 0, mates := [], shape := goodShape.map id, bar := some (.block 2 15) }
def kindW (k : Nat) (w1 w2 w3 : Nat) : List (BitVec 64) := [BitVec.ofNat 64 (k * 2 ^ 58 + 2 ^ 57), BitVec.ofNat 64 w1, BitVec.ofNat 64 w2, BitVec.ofNat 64 w3]
def engines (l : List (Nat × Engine)) : State := { withData with engines := l }
def port1 : Store Port := [(1, { up := true, ident := 0, meas := [], key := 0, asked := [], pairs := [(0, 0, 0)], sent := [] })]
theorem test_meets_EngineCommands :
    (∀ k ∈ [1, 2, 3, 4, 5, 6, 0x10, 0x11, 0x21], let e := engine (kindW k 0 0 64) .accepted
      let s := engines [(7, e)]
      e.kind = k ∧ s.engineOn e = true ∧ e.route = 0 ∧ s.engineBehind 7 e = false) ∧
    (let e := engine (kindW 4 0 0 64) .accepted
    (engines [(7, e), (8, e)]).engineBehind 8 e = true) ∧
    (∀ k ∈ [0x20, 0x22], ∀ n ∈ [64, 32], let e := { engine (kindW k 0 (if k = 0x22 then 2 ^ 58 else 0) 64) .accepted with queue := 2 }
      let x := { engine (kindW 0x21 0 0 n) .running with queue := 2 }
      let s := engines [(7, e), (8, x)]
      e.kind = k ∧ s.engineOn e = true ∧ s.engineBehind 7 e = false ∧ (e.diesLeft.filter fun d => (s.recvFor e d).isSome).head? = some 0 ∧ s.recvFor e 0 = some (8, x) ∧
      (engines [(7, e)]).recvFor e 0 = none ∧ (x.len == e.len) = (n == 64)) ∧
    (∀ k ∈ [0x20, 0x21], let e := engine (kindW k 0 (2 ^ 62 + 2 ^ 58) 64) .accepted
      let s := { engines [(7, e)] with ports := port1 }
      e.route = 1 ∧ e.peer = 1 ∧ s.engineOn e = true ∧ s.engineBehind 7 e = false ∧ (look s.ports 1).any (·.up) = true) ∧
    (∀ x ∈ [(1, 0), (1, 32), (2, 0), (4, 32)], let e := { engine (kindW x.1 0x100 0 (if x.1 = 2 then 2 ^ 32 + 64 else 64)) .running with pos := x.2 }
      let s := engines [(7, e)]
      (e.run 0 0).any (fun y => decide (e.pos < y.len) && y.len == 64 && (x.1 == 4 || y.src e.pos 32 == [(some (0x100 + e.pos), 32)]) &&
        okay (s.reach 0 0 1 0 true (data.at (y.dst + x.2 : Nat)) 32)) = true ∧ okay (s.reach 0 0 1 0 false (data.at (0x100 + x.2 : Nat)) 32) = true ∧
      s.poisoned (data.at (0x100 + x.2 : Nat)) 32 = false ∧ s.engineOn e = true ∧ e.head.all (fun h => !s.outranked e.core h) = true) ∧
    (∀ k ∈ [0x10, 0x11], ∀ n ∈ [(8 : Nat), 0], let e := { engine (kindW k 0 0 (2 ^ 40 + n)) .running with aux := if n = 0 then data else Cap.make 0x28000 16 permR 1 0 0 true }
      let s := engines [(7, e)]
      e.row < e.count ∧ s.engineOn e = true ∧ e.head.all (fun h => !s.outranked e.core h) = true ∧ okay (s.reach 0 0 1 0 false (e.aux.at (n : Int)) 4) = true ∧ s.poisoned (e.aux.at (n : Int)) 4 = false) ∧
    (let e := { engine (kindW 1 0 0 64) .running with row := 1 }
    (engines [(7, e)]).engineDone e = true ∧ ((engines [(7, e)]).gang 3).isSome = true) ∧
    (let e := engine (kindW 1 0 0 64) (.failing 0x0405)
    ((engines [(7, e)]).barGet (.block 2 15)).any (fun b => !b.error) = true ∧ e.bar = some (.block 2 15)) ∧
    fails ((engines []).reach 0 0 1 9 false 0x280000 32) = true := by decide +kernel

/-! Launches, the hypervisor, splits, dispatch, eviction, messages -/

/-- The loaded program's header in memory, and a launch record of 2 blocks that names it; at priority 3, with one argument. -/
def headed : State := { base with mem := writeTo base.mem 0x200000 (leBytes 4 0x0110000A ++ leBytes 4 0 ++ leBytes 4 8 ++ leBytes 4 0) }
def launch_ (compat : Bool) : LaunchRec :=
  { bits := BitVec.ofNat 128 7 ++ BitVec.ofNat 128 (15 * 2 ^ 56 + 3 * 2 ^ 48 + 2) ++ 0#128 ++ (loadCode.bits), tags := if compat then 0 else 1, addr := 0x280000, node := none }
/-- A launch record, and a graph's trigger record, in memory at c2; c5 a signing capability; H mode with partition 5 in use too. -/
def launching : State := inMode .s (putC 5 (Cap.make 0x28000 4864 (permW ||| permSYS) 1 0 0 true) withData)
theorem test_meets_LaunchesTriggersAndSignatures :
    (∃ c, launching.ctx = some c ∧ c.MayTrap launching ∧ launching.acquiring c.gid c.active = false ∧ launching.openFor c.gid c.active = false ∧
      c.ready { srcs := [.s 0 1 false, .c 2] } = true ∧ c.ready { k2 := false, srcs := [.s 0 1 false, .s 1 1 false, .c 2] } = true ∧ c.ready { priv := .s, srcs := [.s 0 1 false, .c 5] } = true ∧
      check15 (c.cv 2) permR ((c.sv 0).toNat : Int) 64 64 = none ∧ check15 (c.cv 2) permR ((c.sv 0).toNat : Int) 16 16 = none ∧
      check15 (c.cv 5) (permW ||| permSYS) ((c.sv 0).toNat : Int) 4864 128 = none ∧ (check15 (c.cv 9) permR 0 64 64).isSome = true) ∧
    (∃ c, acquiring.ctx = some c ∧ acquiring.acquiring c.gid c.active = true) ∧
    (let s := flying (.launch true) .sent [] 0x280000 64
    reaches s = true ∧ (s.enqueue 0 (s.recordAt (s.pasid 0) 0x280000 true)).isSome = true ∧
      (({ s with parts := set s.parts 0 { loadPart with queues := (List.range 8).map fun l => (l, List.replicate 64 (launch_ false)) } } : State).enqueue 0 (s.recordAt (s.pasid 0) 0x280000 true)).isNone = true) :=
  ⟨meets _ _ (by decide +kernel), meets _ _ (by decide +kernel), by decide +kernel⟩

def ruling : State := let s := inMode .h (putS 10 5 (putS 11 7 (putS 12 1 (putC 5 (Cap.make 0x28000 64 (permR ||| permSYS) 1 0 0 true) base))))
  { s with parts := set s.parts 5 { loadPart with colour := 2 }, channels := [(1, { Channel.closed with state := 2 })] }
theorem test_meets_HypervisorInstructions :
    (∃ c, ruling.ctx = some c ∧ c.MayTrap ruling ∧ ruling.openFor c.gid c.active = false ∧ c.ready { priv := .h, srcs := [.s 10 1 false, .c 5], dsts := [.s 63 1] } = true ∧ c.ready { priv := .h, srcs := [.s 10 1 false] } = true ∧ c.ready { priv := .h } = true ∧ (ruling.context 5).state ≤ 2 ∧
      check15 (c.cv 5) (permR ||| permSYS) ((c.sv 0).toNat : Int) 16 32 = none ∧ (check15 (c.cv 9) (permR ||| permSYS) 0 16 32).isSome = true ∧ ruling.cmdQueue = [] ∧
      (c.sv 10).toNat = 5 ∧ c.pid ≠ 5 ∧ (ruling.part 5).any (fun p => p.inUse && !p.halted && p.failed == none) = true ∧ ruling.part 7 = none ∧
      (ruling.cores.all fun k => k.2.occ != some 5) = true ∧ (lookD Channel.closed ruling.channels 1).state = 2 ∧ (lookD Channel.closed ruling.channels 5).state ≠ 2) ∧
    ((acquiring.openFor 3 1) = true) ∧
    ∀ failed ∈ [none, some 80], let s := { ruling with parts := set ruling.parts 5 { loadPart with halted := true, failed := failed } }
      (∃ c, s.ctx = some c ∧ c.MayTrap s) ∧ (s.part 5).any (fun p => p.halted && p.failed == failed) = true ∧
        (({ s with cores := set s.cores 1 { Core.reset with occ := some 5 } } : State).cores.any fun k => k.2.occ == some 5) = true := by
  refine ⟨meets _ _ (by decide +kernel), by decide +kernel, ?_⟩
  intro failed h
  have h2 : failed = none ∨ failed = some 80 := by simpa using h
  obtain rfl | rfl := h2
  · exact ⟨meets _ _ (by decide +kernel), by decide +kernel⟩
  · exact ⟨meets _ _ (by decide +kernel), by decide +kernel⟩

/-- A trap raised at depth 0 that waits for depth 1, which another split's lanes hold, or which is free; and a halted block. -/
def pending : PendingTrap := { lanes := BitVec.allOnes 32, cause := 5, addr := 0x280000, detail := 0, pc := 0x10, word := 0, pfx := 0, resume := 0x10, rest := 0x10, stay := 0x10, late := 2, fills := [(63, 1)], sfills := [63] }
def trapWaits : State := onSplit (fun x => { x with run := .parked .depth, trap := some pending }) base
def depthHeld : State := onGang (fun g => { g with traps := [(1, { mode := .u, depth := 0, entry := 2, lanes := 0, saved := none, pending := none, frame := Cap.null })] }) trapWaits
def inGang (s : State) (p : Gang → Split → Bool) : Bool := (s.gang 3).any fun g => (look g.splits 0).any (p g)
theorem test_meets_SplitStepsOfTheDevice :
    (∀ w ∈ [Wake.met, .queue 0 0x14, .fill 0x14, .pad [(2, 0)], .host, .outbound, .flue 0x14], let s := parkedAt w base
      inGang s (fun g x => g.place == .resident && s.gangMoves 3 { g with stopped := false } && x.run == .parked w && (s.block g.block).isSome &&
        s.flueOps.all fun x => !x.2.waitOf 3 (BitVec.allOnes 32)) = true) ∧
    (∀ r ∈ [Run.held 0, .held 1, .yielding 0 [], .yielding 5 [(3, 0, 100)]], inGang (onSplit (fun x => { x with run := r }) base) (fun _ x => x.run == r) = true) ∧
    base.mayIssue 3 0 = true ∧ (parkedAt .met base).mayIssue 3 0 = false ∧ inGang base (fun g _ => base.gangMoves 3 g) = true ∧
    inGang { base with cores := [] } (fun g _ => !({ base with cores := [] } : State).gangMoves 3 g) = true ∧
    (inGang trapWaits (fun g x => trapWaits.gangMoves 3 g && (look g.traps 1).isNone && trapWaits.seatOk g && x.run == .parked .depth &&
      x.trap.any (fun t => t.lanes == x.mask)) = true) ∧
    inGang depthHeld (fun g x => depthHeld.gangMoves 3 g && (look g.traps 1).isSome && x.run == .parked .depth) = true ∧
    (∀ r ∈ [none, some (0, List.replicate 512 (1 : Byte))],
      let s := onBlock (fun b => { b with halt := some { causes := [(9, 1)], forever := false } }) (onGang (fun g => { g with record := r }) base)
      inGang s (fun g _ => !g.stopped && s.seatOk g && decide (g.skid < 256) && g.splits.length == 1 && g.record == r && (s.core 0).occ == some 0 &&
        (s.block g.block).any fun b => b.halt.any (·.causes == [(9, 1)])) = true) := by
  decide +kernel

/-- A partition whose dispatcher finds that record. -/
def dispatching (r : LaunchRec) : State := { headed with parts := set headed.parts 0 { loadPart with queues := [(3, [r])] } }
theorem test_meets_DispatchPlacementAndCompletion_dispatch :
    (let s := dispatching (launch_ false)
    (s.part 0).any (fun p => p.inUse && p.serving == none && p.level 3 == [launch_ false] && (List.range 3).all (fun k => p.level k == []) &&
      match s.readHeader 0 p loadCode with
      | .ok w => ((s.headerDone 0 loadCode).launchCode 0 p (launch_ false) w).isNone && (headerOf w).gangs == 1
      | _ => false) = true) ∧
    (let s := dispatching (launch_ true)
    (launch_ true).completion = 15 ∧ s.graphs = [] ∧ (s.part 0).any (fun p => match s.readHeader 0 p (launch_ true).code with
      | .error none => true
      | _ => false) = true) ∧
    (let r := { launch_ false with bits := (launch_ false).bits ^^^ BitVec.ofNat 512 (2 ^ 256 * 2) }
    (dispatching r).part 0 |>.any fun p => match (dispatching r).readHeader 0 p r.code with
      | .ok w => (((dispatching r).headerDone 0 r.code).launchCode 0 p r w).isSome
      | _ => false) = true ∧
    ∀ free ∈ [true, false], let x : Launch := { part := 0, record := launch_ false, hdr := { loadHeader with gangs := 2, tiles := 0, banks := 0, scratch := 0 }, next := 0, left := 2, taken := true }
      let s := { headed with launches := [(77, x)], cores := if free then headed.cores else [], parts := set headed.parts 0 { loadPart with serving := some 77 } }
      x.record.group = 0 ∧ (s.part 0).any (fun p => p.serving == some 77 && !p.halted && (s.bestCore 0 p x.hdr (List.range 512) == if free then some 0 else none)) = true := by
  decide +kernel

/-- A block all of whose gangs are over; a graph of two nodes with a trigger that patches node 1. -/
def graph1 : Graph := { part := 0, number := 4, nodes := [launch_ false, launch_ false], edges := [(0, 1)], completion := 15, triggers := [[(1, 3, 9)]], running := false, counts := [],
                        entered := [], waiting := [], done := [], failed := none }
/-- A request of gang 3 that waits on its core, after f; what holds of it. -/
def awaited (acc : Access) (dests : List Dest) (f : State → State) (p : State → Gang → Bool) : Bool :=
  let s := f { flying acc .waiting dests 0 0 with graphs := [(4, graph1)] }
  (look s.reqs 9).any fun r => r.stage == .waiting && r.acc == acc && r.dests == dests && (s.gang r.gang).any fun g => g.place == .resident && (s.core (s.coreOf g)).occ == some (s.partOf g) && p s g
/-- Every level of the partition's queues full, or none. -/
def filled (full : Bool) (s : State) : State := if full then { s with parts := set s.parts 0 { loadPart with queues := (List.range 8).map fun l => (l, List.replicate 64 (launch_ false)) } } else s
theorem test_meets_SplitStepsOfTheDevice_results :
    (∀ x ∈ [([] : List (BitVec 64)), [5]], awaited (.record 0) [.s 62, .s 63] (queued 0 { words fillW with results := x }) (fun s g => (g.queue 0).results == x && s.reqs.length == 1) = true) ∧
    (∀ full ∈ [true, false], awaited (.phase 6) [.s 63] (onGang fun g => { g with sEmpty := put false g.sEmpty 63 (!full) }) (fun _ g => g.sFull 63 == full) = true) ∧
    (∀ full ∈ [true, false], awaited (.enter (launch_ false)) [] (filled full) (fun s _ => (s.enqueue 0 (launch_ false)).isNone == full) = true) ∧
    (∀ n ∈ [(3 : Nat), 4], awaited (.join 4 [(1, 3, 9)]) [] (fun s => { s with graphs := [(4, { graph1 with triggers := List.replicate n [] })] })
      (fun s _ => (look s.graphs (0 * 256 + 4)).any fun g => g.triggers.length == n) = true) ∧
    (∀ held ∈ [true, false], awaited (.phalt 5 [1]) [] (fun s => { s with cores := set s.cores 1 { Core.reset with occ := if held then some 5 else none } })
      (fun s _ => ((s.core 1).occ == some 5) == held) = true) ∧
    (∀ sync ∈ [true, false], ∀ ended ∈ [true, false], let s := onBlock (fun b => { b with bars := set b.bars 15 { Barrier.fresh 1 with phase := ended } }) (parkedAt (.barrier 1 15 63 sync) base)
      barrierOf s 1 15 (fun b => (s.gang 3).any fun g => g.sFull 63 && (waitOver b g (g.compat s) 1 15 (BitVec.allOnes 32)) == ended) = true) := by decide +kernel
theorem test_meets_DispatchPlacementAndCompletion_completion :
    (∀ left ∈ [(1 : Nat), 2], let x : Launch := { part := 0, record := launch_ false, hdr := loadHeader, next := 2, left := left, taken := true }
      let s := onBlock (fun b => { b with launch := 77, group := none }) (onGang (fun g => { g with splits := [], exited := BitVec.allOnes 32 }) { base with launches := [(77, x)] })
      (s.block 2).any (fun b => !s.padBusy 2 b && !b.done && !s.blockNamed 2 && !b.handler && b.group == none && look s.launches b.launch == some x) = true ∧
        (s.gangs.all fun y => s.gangOver y.1 y.2) = true ∧ 8 ≤ x.record.completion ∧ x.record.node = none) ∧
    (∀ g ∈ [graph1, { graph1 with triggers := [[]] }, { graph1 with running := true }], let s := { base with graphs := [(4, g)] }
      (s.part 0).isSome = true ∧ (look s.graphs (0 * 256 + 4)).any (fun g => !g.triggers.isEmpty && (g.nodes[1]?).isSome && decide (8 ≤ g.completion)) = true) := by
  decide +kernel

/-- A parked gang whose seat a launch's next block wants; evicted, with its condition met; and a core's turns with partition 1 of the same core. -/
def wanted : State := let s := onBlock (fun b => { b with padEmpty := [(0, true)] }) (parkedAt (.pad [(2, 0)]) base)
  { s with parts := set s.parts 0 { loadPart with serving := some 77, seatQuota := 2 },
           launches := [(77, { part := 0, record := launch_ false, hdr := { loadHeader with gangs := 2, tiles := 0, banks := 0, scratch := 0 }, next := 0, left := 2, taken := true })] }
def evicted : State := onGang (fun g => { g with place := .evicted, record := some (0, List.replicate 512 1) }) (parkedAt .met base)
def turning (clk : Word) (halted halting two : Bool) : State := let s := base
  { s with parts := set (if two then set s.parts 1 { loadPart with colour := 2 } else s.parts) 0 { loadPart with halted := halted },
           contexts := if two then set s.contexts 1 loadContext else s.contexts,
           cores := set s.cores 0 { Core.reset with occ := some 0, sliceclk := [(0, clk)], halting := halting } }
theorem test_meets_EvictionsAndTurns :
    ((wanted.gang 3).any (fun g => g.place == .resident && decide (g.seat < 32) && g.parked && g.record == none && wanted.runsOn 0 0 && wanted.genFree 0 g.seat &&
      wanted.seatWanted 0 0 && wanted.recordOk 0 (evictRecPlace wanted 0) && wanted.seatOk g) = true) ∧
    (evicted.gang 3).any (fun g => g.place == .evicted && evicted.gangWakes 3 g && evicted.runsOn 0 0 && (evicted.free 0 0).seats != 0 && decide (64 ≤ (evicted.free 0 0).regs) &&
      evicted.recordOk 0 (evictRecPlace evicted 0) && evicted.seatOk { g with seat := evicted.freeSeat 0 0 } && (evictRecPlace evicted 0).2 == 0x4000 &&
      !isHost (evictRecPlace evicted 0).1) = true ∧
    leNat ((evicted.bytesAt 0 (evictRecPlace evicted 0).1 0x4000).take 8) = 0 ∧
    (let s := { base with cores := [] }
    (s.core 3).occ = none ∧ ({ s with parts := set s.parts 0 { loadPart with coreSet := 8 } } : State).nextTurn 3 ((s.core 3).lastTurn) = some 0) ∧
    ((turning 5 false false true).nextTurn 0 0 = some 1 ∧ (turning 65536 false false true).nextTurn 0 0 = some 1 ∧ (turning 65536 false true true).drained 0 0 = true ∧
      (turning 65536 false false false).nextTurn 0 0 = some 0 ∧ (turning 65536 false false false).gangs.length = 1 ∧ (turning 0 true false false).nextTurn 0 0 = none ∧
      (turning 0 true false false).drained 0 0 = true ∧ (turning 0 true false false).recordOk 0 (coreRecPlace (turning 0 true false false) 0) = true ∧
      (flying (.store [0]) .sent [] 0x280000 1).drained 0 0 = false) := by decide +kernel

/-- A record whose first eight bytes are not the value kept does not restore; one that the device has just sealed does. -/
theorem test_meets_EvictionsAndTurns_records :
    (evicted.sealCause 0 (evictRecPlace evicted 0) (1, 0) = some 84) ∧
    ∃ s : State, ∃ kept, s = (evicted.sealAt 0 (evictRecPlace evicted 0)).1 ∧ s.gangs = evicted.gangs ∧ s.sealCause 0 (evictRecPlace evicted 0) kept = none := by
  have hh : isHost (evictRecPlace evicted 0).1 = false ∧ 8 ≤ (evictRecPlace evicted 0).2 := by decide +kernel
  have h : leNat ((evicted.bytesAt 0 (evictRecPlace evicted 0).1 (evictRecPlace evicted 0).2).take 8) = 0 := by
    have h2 : (evictRecPlace evicted 0).2 = 0x4000 := by decide +kernel
    rw [h2]; decide +kernel
  refine ⟨by simp [State.sealCause, h], _, (evicted.sealAt 0 (evictRecPlace evicted 0)).2, rfl, ?_, sealCause_sealAt _ _ _ hh.1 hh.2⟩
  simp only [State.sealAt]
  rw [(State.devWrite_spec _ _ _ _).choose_spec.choose_spec]
  simp only [State.writeBytes, hh.1, Bool.false_eq_true, if_false, evalWaits]
  rfl

/-- A message from core 0 to core 0 and handler 2; to port 1; a full inbound queue; and a peer's message. -/
def msg (route : Nat) : Msg := { part := 0, sender := 0, dest := BitVec.ofNat 32 (route * 2 ^ 30 + route * 2 ^ 26 + 2), payload := List.replicate 16 7, fromHandler := false }
def messaging (out inb : List Msg) : State := { headed with cores := set headed.cores 0 { Core.reset with occ := some 0, outbound := out, inbound := inb },
                                                             parts := set headed.parts 0 { loadPart with handlers := [(2, loadCode)] }, ports := port1 }
/-- AMSEND's destinations: this one, and one that fails each check. -/
def sending (d : Word) (s : State) : State := putS 63 d s
def verdict (c : Ctx) (s : State) : Nat :=
  let d := c.sv 63
  let route := (d.extractLsb' 30 2).toNat
  let port := (d.extractLsb' 26 4).toNat
  if d.extractLsb' 8 9 ≠ 0 ∨ 2 ≤ route ∨ (route = 0 ∧ port ≠ 0) ∨ (route = 1 ∧ 12 ≤ port) then 1
  else if route = 0 ∧ c.part.coreSet.getLsbD (d.extractLsb' 17 9).toNat = false then 2
  else if route = 0 ∧ look c.part.handlers (d.extractLsb' 0 8).toNat = none then 3
  else if route = 1 ∧ (look s.ports port).any (fun p => p.up && p.pairs.any fun x => x.1 == c.pid) = false then 4 else 0
/-- An overflow area all of whose places hold a message. -/
theorem test_full_overflow (s : State) (m : Msg) (h : s.overflow = (List.range 16384).map fun n => { msg := m, place := n, stamp := 0 }) :
    16384 ≤ s.overflowPlace m.part := by
  have hu : (s.overflow.filter fun x => x.msg.part == m.part).map (·.place) = List.range 16384 := by
    rw [h, List.filter_map, List.map_map, List.filter_eq_self.mpr (by intro a _; simp)]
    exact List.map_id _
  simp only [State.overflowPlace, hu, List.length_range]
  cases hf : (List.range (16384 + 1)).find? fun n => !(List.range 16384).contains n with
  | none => exact absurd (List.find?_eq_none.mp hf 16384 (by simp)) (by simp)
  | some n =>
    have hn := List.find?_some hf
    simp at hn
    simpa using hn
theorem test_meets_MessagesAndHandlers :
    (∀ x ∈ [((2 : Word), 0), (0x44000000, 0), (0x80000002, 1), (0x20002, 2), (3, 3), (0x48000000, 4)], let s := sending x.1 (messaging [] [])
      ∃ c, s.ctx = some c ∧ c.MayTrap s ∧ c.ready { wf := (32 : Reg) == 0 || (32 : Reg) == 16 || (32 : Reg) == 32, srcs := [.s 63 1 false, .s 32 16 false] } = true ∧
        s.openFor c.gid c.active = false ∧ verdict c s = x.2) ∧
    (let s := messaging (List.replicate 12 (msg 0)) []
    ((s.core 0).outbound.filter fun m => !m.fromHandler).length = 12) ∧
    (let s := messaging [msg 0] []
    (s.core 0).outbound = [msg 0] ∧ (msg 0).route ≠ 1 ∧ (s.part (msg 0).part).any (·.inUse) = true ∧ (msg 0).core = 0 ∧ s.spilledFor (msg 0) = false) ∧
    (let s := messaging [msg 0] (List.replicate 64 (msg 0))
    64 ≤ (s.core 0).inbound.length ∧ s.overflowPlace 0 = 0 ∧ ({ s with overflow := [{ msg := msg 0, place := 0, stamp := 1 }] } : State).spilledFor (msg 0) = true ∧ (s.part 0).any (fun p => !p.broken && s.ownArea p (p.area + 0x900000) 64) = true) ∧
    (let s := messaging [msg 1] []
    (msg 1).route = 1 ∧ (look s.ports (msg 1).port).any (fun p => p.up && p.pairs.any fun y => y.1 == 0) = true ∧ (s.part 0).any (fun q => q.coreSet.getLsbD 0 &&
      look q.handlers 2 == some loadCode) = true) ∧
    (∀ seats ∈ [[], [(32 : Nat)]], let s := { messaging [] [msg 0] with gangs := seats.map fun n => (5, { Gang.start 2 0 n 5 false 0 loadCode with seat := n }) }
      (s.core 0).occ = some 0 ∧ (s.core 0).inbound = [msg 0] ∧ (s.part 0).any (fun p => match s.readHeader 0 p loadCode with
        | .ok _ => true
        | _ => false) = true ∧ (s.gangs.all fun x => x.2.seat == 32 && s.coreOf x.2 == 0 && s.partOf x.2 == 0) = true) := by
  refine ⟨?_, by decide +kernel, by decide +kernel, by decide +kernel, by decide +kernel, by decide +kernel⟩
  intro x h
  have h2 : x = (2, 0) ∨ x = (0x44000000, 0) ∨ x = (0x80000002, 1) ∨ x = (0x20002, 2) ∨ x = (3, 3) ∨ x = (0x48000000, 4) := by simpa using h
  obtain rfl | rfl | rfl | rfl | rfl | rfl := h2 <;> exact meets _ _ (by decide +kernel)
/-- A signed reading's request with its split held; the words of a component's shares. -/
theorem test_meets_PowerAndEnergy :
    (let s := onSplit (fun x => { x with run := .busy }) { flying .sign .sent [] 0x280000 4864 with clk := 1024 }
    s.reqs.length = 1 ∧ (look s.reqs 9).any (fun r => r.acc == .sign && r.stage == .sent && r.gang == 3 && r.size == 4864 && okay (s.reach r.core r.part r.cap.colour r.cap.gen true r.addr 4864)) = true ∧
      inGang s (fun _ x => x.run == .busy && x.mask.getLsbD 0) = true ∧ (s.part 0).isSome = true ∧ (s.core 0).dampWin < s.clk.toNat / 1024) ∧
    base.clk.toNat / 1024 ≤ (base.core 0).dampWin ∧
    (∀ x ∈ [((3601 : Nat), (0 : Nat)), (3600, 105)], 3600 < x.1 ∨ 105 ≤ x.2) ∧ ((3239 : Nat) < 3240 ∧ (94 : Nat) < 95) ∧
    shareOut 100 [(0, 1), (255, 2)] = [(256, 1), (0, 33), (255, 66)] ∧ rising base.cores = true ∧
    ((0, 5) ∈ ({ base with tally := [(4 * 256, 5)] } : State).usesOf 4 0) := by decide +kernel

/-- Lists: none readable, one with no entry, one with a reserved kind, and one that sets the tile geometry; from the mailbox and from s63 of gang 3. -/
def listed (dest : Option (Nat × Nat)) (bytes : List Byte) : State :=
  { base with mem := writeTo base.mem 0x280000 bytes, cmdQueue := [{ addr := 0x280000, cap := none, dest := dest }], confidential := false }
def entry (w0 w1 w2 w3 : Nat) : List Byte := leBytes 8 w0 ++ leBytes 8 w1 ++ leBytes 8 w2 ++ leBytes 8 w3
/-- What reading and applying a list gives: no entries, the reason of the first that fails, or the state. -/
def verdictOf (s : State) : Option (Except (Nat × Nat) State) := s.cmdQueue.head?.bind fun l => match s.readList l with
  | .ok es => some (s.applyEntries es 0)
  | .error _ => none
def itemsOf (s : State) : List ListItem := (s.cmdQueue.head?.bind fun l => (s.readList l).toOption).getD [] |>.filterMap id
theorem test_meets_ListsAndSweeps :
    (∀ dest ∈ [none, some (3, 63)],
      (verdictOf (listed dest (leBytes 16 0))).isNone = true ∧
      (let s := listed dest (leBytes 16 1 ++ entry (0x77 * 2 ^ 56) 0 0 0)
      (verdictOf s).any (fun r => !r.toOption.isSome) = true ∧ ((itemsOf s).all fun x => ekind x.entry == 0x77 && entryBits 0x77 == none && entryClean x.entry) = true) ∧
      (let s := listed dest (leBytes 16 1 ++ entry (0x13 * 2 ^ 56 + 1) 0 0 0)
      (verdictOf s).any (fun r => r.toOption.isSome) = (geometryOk 0)) ∧
      (let s := { listed dest (leBytes 16 1 ++ entry (0x42 * 2 ^ 56) 0 0 0) with gangs := [] }
      (verdictOf s).any (fun r => r.toOption.isSome) = true ∧ s.awaits (itemsOf s) = true ∧ { s with cores := [] }.awaits (itemsOf s) = false ∧
        (({ s with cores := [] } : State).applyAccepted (itemsOf s)).changing = [] ∧ (s.part 0).isSome = true)) ∧
    (∀ es ∈ [[(7 : Nat)], [9]], let s := { base with changing := [7] }
      (∃ x ∈ es, x ∈ s.changing) ↔ es = [7]) ∧
    (let s := { base with extents := set base.extents 9 0xC000000100000000 }
    s.sweep = none ∧ (s.extents.any fun x => extState x.2 == 3) = true ∧ (s.gang 3).any (fun g => rising g.c) = true) ∧
    (base.sweep = none ∧ base.sweepAsked = false ∧ base.retired = [] ∧ (base.extents.all fun x => extState x.2 != 3) = true) ∧
    (∀ x ∈ [ListStage.queued, .accepted []], let s := { base with sweep := some { extents := [], colours := [] }, cmdQueue := [{ addr := 0, cap := none, dest := none, stage := x }] }
      s.sweep.isSome = true ∧ s.listAccepted = (x == .accepted [])) := by decide +kernel

/-- An outstanding request; host bytes of a line; an open channel; held events; and an event register. -/
theorem test_meets_HostWindowAndRegisters :
    (∀ quiet ∈ [true, false], let r : AtsReq := { die := 0, pasid := 1, page := 0x800000000, part := 0, quiet := quiet }
    let s := { base with atsOut := [r] }
    (s.atsOut.find? fun x => x.isFor 0 1 0x800000000) = some r ∧ r.quiet = quiet ∧ s.xlate = []) ∧
    isHost 0x800000000080 = true ∧ 0x800000000080 / 128 = 0x10000000001 ∧
    (let s := { base with confidential := true, channels := [(1, { Channel.closed with state := 1, first := 1, count := 2 })] }
    (s.channel 1).state = 1 ∧ (2 ^ 36 + 0x3FFFFF) % 2 ^ 36 + 1 ≤ (s.channel 1).count * 0x200000 ∧ (2 ^ 36 + 0x400000) % 2 ^ 36 + 1 > (s.channel 1).count * 0x200000) ∧
    (let s := { base with events := { base.events with held := List.replicate 256 (List.replicate 32 (1 : Byte)) } }
    s.events.held.length ≤ 256 ∧ s.events.head < 4096 ∧ (s.events.held.all fun b => b.length == 32) = true ∧ s.events.held ≠ []) ∧
    (({ base with confidential := true } : State).channel 2).state = 0 ∧ base.confidential = false ∧ base.poisoned 0 128 = false ∧
    hostRegister 0x20 = false ∧ hostRegister 0x1C = true ∧ mailboxCode 12 = true ∧ mailboxCode 13 = false ∧ base.mailbox.busy = false ∧ base.events.held = [] ∧
    ({ base with confidential := true } : State).readable 0x100 = false := by decide +kernel

theorem test_meets_FabricPortsAndPairs :
    (∀ p, look base.ports 11 = some p → p.up = false) ∧ (let s := { base with ports := port1, engines := [(7, engine (kindW 0x20 0 (2 ^ 62 + 2 ^ 58) 64) .accepted), ] }
    (look s.ports 1).isSome = true ∧ s.engines.length = 1 ∧ (s.engines.all fun x => x.2.route == 1 && x.2.peer == 1 && 0x20 ≤ x.2.kind) = true) ∧
    (let s := { base with ports := [(1, { up := true, ident := 0, meas := [], key := 0, asked := [(0, 4)], pairs := [], sent := [] })] }
    (look s.ports 1).any (fun p => p.up && p.asked.contains (0, 4)) = true ∧ (s.context 0).state = 1) := by
  refine ⟨?_, by decide +kernel⟩
  have h : look base.ports 11 = none := by decide +kernel
  intro p hp
  simp [h] at hp

/-- Each command as the doorbell leaves it, with partition 0 in use, a graph, a channel, a port; and KEY_LOAD's partition with a key slot. (What the sealed
and signed data of KEY_LOAD, MIGRATE_WRAP and MIGRATE_UNWRAP opens to is not known of any data: log 23.) -/
def commanded (cmd : Word) (args : List Word) : State :=
  { base with mailbox := { base.mailbox with run := some (cmd, args, List.replicate 16384 0) }, graphs := [(4, { graph1 with triggers := [] })], ports := port1,
              channels := [(1, { Channel.closed with state := 1 })], parts := set base.parts 0 { loadPart with keyCount := 1 } }
theorem test_meets_MailboxCommands : ∀ x ∈ ([(1, [0, 0x280000, 0, 0]), (1, [5, 0x280000, 0, 0]), (1, [0, 0x280020, 0, 0]), (2, [0x400, 0x280000, 0, 0]), (3, [0, 0x280000, 0, 0]), (4, [256, 0, 0, 0]),
      (5, [0, 0, 0, 0]), (6, [0, 0, 0, 0]), (7, [0, 0, 0, 0]), (7, [5, 0, 0, 0]), (8, [1, 0, 0, 0]), (8, [2, 0, 0, 0]), (10, [0, 0, 0, 0]), (10, [5, 0, 0, 0]), (11, [0, 0, 0, 0]),
      (11, [5, 0, 0, 0]), (12, [0x10001, 0, 0, 0]), (9, [2, 0, 0, 0])] : List (Word × List Word)), let s := commanded x.1 x.2
    s.mailbox.run.any (fun r => r.1 == x.1 && r.2.1 == x.2 && r.2.2.length == 16384) = true ∧ (s.part 0).any (fun p => p.inUse && s.ownArea p 0x280000 64 && decide ((p.level 0).length < 64)) = true ∧
    s.part 5 = none ∧ s.poisoned 0x280000 64 = false ∧ leNat (s.bytesAt 0 0x280000 16) = 0 ∧ (look s.graphs 4).any (fun g => g.triggers.isEmpty) = true ∧ s.cmdQueue = [] ∧
    s.alive 0 = true ∧ (look s.ports 1).any (·.up) = true ∧ (s.channel 1).state = 1 ∧ (s.channel 2).state = 0 := by decide +kernel

theorem test_meets_ScrubsLeaveTheResetState : let s := commanded 9 [1, 0, 0, 0]
    s.mailbox.run.isSome = true ∧ s.events.held = [] ∧ (s.events.head + 1) % 4096 ≠ s.events.tail := by decide +kernel

/-- A state in canonical form with listed memory, and a next step. -/
theorem test_meets_EveryStepKeepsMemoryCanonical : Memory.wf headed.mem ∧ Memory.wf headed.hostMem ∧ headed.mem ≠ [] ∧ (after headed).isSome = true := by decide +kernel

/-- NaN, the infinities, zeros and a number of each format. -/
theorem test_meets_FloatResultsAreRoundedOnce : f32.val 0x7FC00000 = .nan ∧ f32.val 0x7F800000 = .inf false ∧ f32.val 0xFF800000 = .inf true ∧
    (f32.val 0x80000000 matches .fin true 0 _) = true ∧ (f32.val 1 matches .fin false 1 _) = true ∧ f16.val 0x7E00 = .nan ∧ bf16.val 0x7FC0 = .nan ∧
    f16.val 0x7C00 = .inf false ∧ bf16.val 0xFF80 = .inf true := by decide +kernel

end Sys2Proof.Tests

end
end

/-! ## Proofs about decoding: the long words of formats 3R and 4R (R73, R75, R83) -/

namespace Sys2Proof

/-! ### From a table word to its long word -/

/-- A word is the concatenation of the bytes that its number gives, lowest first (R5). -/
theorem word4_bytes (w : Word) : word4 (BitVec.ofNat 8 w.toNat) (BitVec.ofNat 8 (w.toNat / 256)) (BitVec.ofNat 8 (w.toNat / 256 / 256))
    (BitVec.ofNat 8 (w.toNat / 256 / 256 / 256)) = w := by
  apply BitVec.eq_of_toNat_eq
  simp only [word4, BitVec.toNat_append, BitVec.toNat_ofNat]
  rw [← Nat.shiftLeft_add_eq_or_of_lt (by omega), ← Nat.shiftLeft_add_eq_or_of_lt (by omega), ← Nat.shiftLeft_add_eq_or_of_lt (by omega)]
  simp only [Nat.shiftLeft_eq]
  have := w.isLt
  omega

/-- R73, R77: a word whose bit 0 is set and whose major opcode is not 0x3F decodes as one long word. -/
theorem decodeTableWord_long {w : Word} {i : Instr} (h0 : w.getLsbD 0 = true) (hp : w.extractLsb' 1 7 ≠ 0x3F#7) (hd : decodeLong w = .ok i) :
    decodeTableWord 32 w.toNat = some i := by
  have hb : (BitVec.ofNat 8 w.toNat).getLsbD 0 = true := by
    simpa only [BitVec.getLsbD, BitVec.ofNat_toNat, BitVec.toNat_setWidth, Nat.reducePow, Nat.testBit_zero, Nat.reduceDvd,
      Nat.mod_mod_of_dvd] using h0
  have hn : ¬w.extractLsb' 1 7 = 63 := hp
  simp only [decodeTableWord, Nat.mod_eq_of_lt w.isLt, bytesOfNat, decode, hb, Bool.not_true, Bool.false_eq_true, if_false, word4_bytes,
    beq_iff_eq, hn, hd, Except.map]

/-! ### The fields of an encoded word (R75) -/

/-- The major opcodes of formats 3R and 4R (R83, R84). -/
def opcodes3R : List (BitVec 7) := [0x00, 0x01, 0x02, 0x03, 0x08, 0x13, 0x14, 0x16, 0x19, 0x1A, 0x1C, 0x40, 0x41, 0x42]
def opcodes4R : List (BitVec 7) := [0x04, 0x05, 0x06, 0x07, 0x15, 0x17, 0x18, 0x46]

theorem enc3R_fields (op : BitVec 7) (fn : BitVec 4) (pb pa : Bool) (b a d : Reg) : let w := enc3R op fn pb pa b a d
    w.getLsbD 0 = true ∧ w.extractLsb' 1 7 = op ∧ w.extractLsb' 8 6 = d ∧ w.extractLsb' 14 6 = a ∧ w.extractLsb' 20 6 = b ∧
      w.getLsbD 26 = pa ∧ w.getLsbD 27 = pb ∧ w.extractLsb' 28 4 = fn := by
  simp (disch := decide) only [enc3R, BitVec.extractLsb'_append_eq_of_le (v := _ + _), BitVec.extractLsb'_append_eq_of_le (v := 4),
    BitVec.extractLsb'_append_eq_of_add_le, BitVec.getLsbD_append (n := _ + _), BitVec.getLsbD_append (n := 4)]
  simp only [Nat.lt_add_one, if_true, if_false, BitVec.getLsbD_eq_getElem, BitVec.getElem_one, decide_true, Nat.sub_self,
    BitVec.extractLsb'_eq_self, Nat.add_one_sub_one, Nat.reduceSub, Nat.reduceLT, Nat.lt_irrefl, BitVec.getElem_ofBool, and_self]

theorem enc4R_fields (op : BitVec 7) (c b a d : Reg) : let w := enc4R op c b a d
    w.getLsbD 0 = true ∧ w.extractLsb' 1 7 = op ∧ w.extractLsb' 8 6 = d ∧ w.extractLsb' 14 6 = a ∧ w.extractLsb' 20 6 = b ∧
      w.extractLsb' 26 6 = c := by
  simp (disch := decide) only [enc4R, BitVec.extractLsb'_append_eq_of_le (v := _ + _), BitVec.extractLsb'_append_eq_of_le (v := 6),
    BitVec.extractLsb'_append_eq_of_add_le, BitVec.getLsbD_append (n := _ + _)]
  simp only [Nat.lt_add_one, if_true, BitVec.getLsbD_eq_getElem, BitVec.getElem_one, decide_true, Nat.sub_self,
    BitVec.extractLsb'_eq_self, Nat.add_one_sub_one, Nat.reduceSub, and_self]

/-! ### The format that a major opcode selects -/

theorem decodeLong_enc3R {op : BitVec 7} (h : op ∈ opcodes3R) (fn : BitVec 4) (pb pa : Bool) (b a d : Reg) :
    decodeLong (enc3R op fn pb pa b a d) = dec3R op.toNat fn pb pa b a d := by
  obtain ⟨-, hop, hd, ha, hb, hpa, hpb, hfn⟩ := enc3R_fields op fn pb pa b a d
  simp only [decodeLong, hop, hd, ha, hb, hpa, hpb, hfn]
  simp only [opcodes3R, List.mem_cons, List.not_mem_nil, or_false] at h
  rcases h with rfl | rfl | rfl | rfl | rfl | rfl | rfl | rfl | rfl | rfl | rfl | rfl | rfl | rfl <;> rfl

theorem decodeLong_enc4R {op : BitVec 7} (h : op ∈ opcodes4R) (c b a d : Reg) :
    decodeLong (enc4R op c b a d) = dec4R op.toNat c b a d := by
  obtain ⟨-, hop, hd, ha, hb, hc⟩ := enc4R_fields op c b a d
  simp only [decodeLong, hop, hd, ha, hb, hc]
  simp only [opcodes4R, List.mem_cons, List.not_mem_nil, or_false] at h
  rcases h with rfl | rfl | rfl | rfl | rfl | rfl | rfl | rfl <;> rfl

/-- A table word of format 3R decodes as its function code says. -/
theorem decodeTableWord_enc3R {op : BitVec 7} (h : op ∈ opcodes3R) {fn : BitVec 4} {pb pa : Bool} {b a d : Reg} {i : Instr}
    (hd : dec3R op.toNat fn pb pa b a d = .ok i) : decodeTableWord 32 (enc3R op fn pb pa b a d).toNat = some i := by
  obtain ⟨h0, hop, -⟩ := enc3R_fields op fn pb pa b a d
  refine decodeTableWord_long h0 ?_ ((decodeLong_enc3R h fn pb pa b a d).trans hd)
  rw [hop]
  rintro rfl
  exact absurd h (by decide)

/-- A table word of format 4R decodes as its major opcode says. -/
theorem decodeTableWord_enc4R {op : BitVec 7} (h : op ∈ opcodes4R) {c b a d : Reg} {i : Instr}
    (hd : dec4R op.toNat c b a d = .ok i) : decodeTableWord 32 (enc4R op c b a d).toNat = some i := by
  obtain ⟨h0, hop, -⟩ := enc4R_fields op c b a d
  refine decodeTableWord_long h0 ?_ ((decodeLong_enc4R h c b a d).trans hd)
  rw [hop]
  rintro rfl
  exact absurd h (by decide)

/-- R83: fn[3] of SEL is its sense, and fn[2:0] its predicate register. -/
theorem dec3R_sel (n : Bool) (p : KReg) (pb pa : Bool) (b a d : Reg) :
    dec3R 0x03 (BitVec.ofBool n ++ p) pb pa b a d = .ok (if n then .selN p pb pa b a d else .sel p pb pa b a d) := by
  have hn : (BitVec.ofBool n ++ p).getLsbD 3 = n := by
    simp only [BitVec.getLsbD_append, BitVec.getLsbD_ofBool, Nat.lt_irrefl, if_false, Nat.sub_self, decide_true, Bool.true_and]
  have hp : (BitVec.ofBool n ++ p).extractLsb' 0 3 = p := BitVec.extractLsb'_append_eq_right
  simp only [dec3R, hn, hp]

end Sys2Proof

/-! ## Proofs about the integer instructions of family 06 (R116, R117) -/

namespace Sys2Proof.Machine

/-! ### The lanes that execute, and sources that wait -/

/-- R79, R229: the lanes that execute are the active ones whose predicate holds, of those that the instruction has not yet served. -/
theorem State.ctx_live_eq {s : State} {c : Ctx} (h : s.ctx = some c) :
    c.live = c.active &&& (maskOf fun l => c.g.kAt c.pfx.predicate.toNat l != c.pfx.negate) &&&
      (if c.sp.only == 0 then BitVec.allOnes 32 else c.sp.only) := by
  unfold ctx at h
  split at h
  · cases h
  · split at h
    · split at h
      · cases h
      · cases h; rfl
    · cases h

/-- R79: with no part of the instruction completed, a lane executes when it is active and its predicate holds. -/
theorem lane_iff_predicated {s : State} {c : Ctx} (h : s.ctx = some c) (ho : c.sp.only = 0) (l : Nat) :
    c.Lane l ↔ l < 32 ∧ c.active.getLsbD l = true ∧ (c.g.kAt c.pfx.predicate.toNat l != c.pfx.negate) = true := by
  refine and_congr_right fun hl => ?_
  rw [State.ctx_live_eq h, ho]
  simp only [beq_self_eq_true, if_true, BitVec.and_allOnes, BitVec.getLsbD_and, getLsbD_maskOf _ _ hl, Bool.and_eq_true]

/-- R58: an instruction any mode may issue, whose operands all exist, stays where it is while a source that waits is empty. -/
theorem issue_waits {s : State} {c : Ctx} (h : s.ctx = some c) {srcs : List Src} {dsts : List Dst} (hs : srcs.all c.srcOk = true)
    (hd : dsts.all c.dstOk = true) (hw : (srcs.any fun x => !x.traps && c.emptyLanes x != 0) = true) (body : Ctx → Act) :
    issue s { srcs := srcs, dsts := dsts } body = .next s := by
  have hm : ¬modeRank c.sp.mode < modeRank .u := Nat.not_lt_zero _
  simp only [issue, h, hm, hs, hd, hw, Bool.not_true, Bool.or_self, Bool.false_and, Bool.false_eq_true, if_false, if_true]

@[simp] theorem Ctx.vRange_one (c : Ctx) (r : Nat) : c.vRange r 1 = c.vOk r := by
  simp only [vRange, List.range_one, List.all_cons, Nat.add_zero, List.all_nil, Bool.and_true]

/-- R117: the sources of a lane instruction of format 4R always wait, whichever of them is empty. -/
theorem lane3_waits {s : State} {c : Ctx} {f : Word → Word → Word → Word} {x b a d : Reg} (h : s.ctx = some c) (ha : c.vOk a.toNat = true)
    (hb : c.vOk b.toNat = true) (hx : c.vOk x.toNat = true) (hd : c.vOk d.toNat = true)
    (he : ([.v a.toNat 1 false .none, .v b.toNat 1 false .none, .v x.toNat 1 false .none] : List Src).any (fun y => c.emptyLanes y != 0) = true) :
    lane3 f x b a d s = .next s := by
  refine issue_waits h ?_ ?_ ?_ _
  · simp only [List.all_cons, Ctx.srcOk, Ctx.vRange_one, ha, hb, hx, List.all_nil, Bool.and_self]
  · simp only [List.all_cons, Ctx.dstOk, Ctx.vRange_one, hd, List.all_nil, Bool.and_self]
  · simpa only [Src.traps, List.any_cons, List.any_nil, Bool.not_false, Bool.true_and] using he

/-! ### SEL (R116) -/

/-- R56: k0 is true in every lane. -/
@[simp] theorem Gang.kAt_zero (g : Gang) (l : Nat) : g.kAt 0 l = true := rfl

theorem exec_sel (n : Bool) (p : KReg) (pb pa : Bool) (b a d : Reg) (s : State) :
    exec (if n then .selN p pb pa b a d else .sel p pb pa b a d) s = laneSel n p pb pa b a d s := by
  cases n <;> rfl

/-! ### IMAD (R117) -/

theorem exec_imad (x b a d : Reg) (s : State) : exec (.imad x b a d) s = lane3 (fun a b c => a * b + c) x b a d s := rfl

/-- The low word does not tell signed operands from natural ones: both give the product and sum modulo 2^32. -/
theorem ofInt_mul_add_toInt (a b c : Word) : (BitVec.ofInt 32 (a.toInt * b.toInt + c.toInt) : Word) = a * b + c := by
  simp only [BitVec.ofInt_add, BitVec.ofInt_mul, BitVec.ofInt_toInt]

theorem ofNat_mul_add_toNat (a b c : Word) : (BitVec.ofNat 32 (a.toNat * b.toNat + c.toNat) : Word) = a * b + c := by
  simp only [BitVec.ofNat_add, BitVec.ofNat_mul, BitVec.ofNat_toNat, BitVec.setWidth_eq]

/-! ### The obligations -/

/-- Settles O1: SEL writes one v register in its live lanes, each lane the source its k register picks, and k0 picks the same one in all. -/
theorem selectChoosesByItsPredicate : Obligations.SelectChoosesByItsPredicate := by
  unfold Obligations.SelectChoosesByItsPredicate
  refine ⟨fun n p pb pa b a d => decodeTableWord_enc3R (by decide) (dec3R_sel n p pb pa b a d),
    fun s c n p pb pa b a d hc hr => ⟨fun ho l => lane_iff_predicated hc ho l, ?_⟩⟩
  obtain ⟨t, ht, hdone, hv⟩ := issue_writeV hc hr d.toNat
    fun c l => if c.g.kAt p.toNat l != n then c.v a.toNat .a l else c.v b.toNat .b l
  refine ⟨t, (exec_sel n p pb pa b a d s).trans ht, hdone, hv, ?_⟩
  rintro rfl l hl
  have h0 := hv l hl
  rw [show (0 : KReg).toNat = 0 from rfl, Gang.kAt_zero] at h0
  cases n <;> exact h0

/-- Settles O39: IMAD writes a * b + c modulo 2^32, which is the low word of the exact value in either reading of its operands. -/
theorem multiplyAddWritesTheLowWord : Obligations.MultiplyAddWritesTheLowWord := by
  unfold Obligations.MultiplyAddWritesTheLowWord
  refine ⟨fun x b a d => decodeTableWord_enc4R (by decide) rfl, fun s c x b a d hc => ⟨fun hr => ?_, fun ha hb hx hd he => ?_⟩,
    fun a b c => (ofInt_mul_add_toInt a b c).trans (ofNat_mul_add_toNat a b c).symm⟩
  · obtain ⟨t, ht, hdone, hv⟩ := issue_writeV hc hr d.toNat fun c l => c.v a.toNat .none l * c.v b.toNat .none l + c.v x.toNat .none l
    exact ⟨t, (exec_imad x b a d s).trans ht, hdone, fun l hl => by rw [ofNat_mul_add_toNat]; exact hv l hl⟩
  · exact (exec_imad x b a d s).trans (lane3_waits hc ha hb hx hd he)

end Sys2Proof.Machine

/-! ## Proofs about the decoding of long words with a reserved field set (R73, R76) -/

namespace Sys2Proof

/-- R73, R77: a word whose bit 0 is set and whose major opcode is not 0x3F stands for no instruction when its format gives it none. -/
theorem decodeTableWord_long_error {w : Word} {e : DecodeError} (h0 : w.getLsbD 0 = true) (hp : w.extractLsb' 1 7 ≠ 0x3F#7)
    (hd : decodeLong w = .error e) : decodeTableWord 32 w.toNat = none := by
  have hb : (BitVec.ofNat 8 w.toNat).getLsbD 0 = true := by
    rw [BitVec.getLsbD_ofNat]
    exact h0
  have hn : ¬w.extractLsb' 1 7 = 63 := hp
  simp only [decodeTableWord, Nat.mod_eq_of_lt w.isLt, bytesOfNat, decode, hb, Bool.not_true, Bool.false_eq_true, if_false, word4_bytes,
    beq_iff_eq, hn, hd, Except.map]

/-- A table word of format 3R stands for what its function code says, and for nothing where that is an error. -/
theorem decodeTableWord_enc3R_eq {op : BitVec 7} (h : op ∈ opcodes3R) (fn : BitVec 4) (pb pa : Bool) (b a d : Reg) :
    decodeTableWord 32 (enc3R op fn pb pa b a d).toNat = (dec3R op.toNat fn pb pa b a d).toOption := by
  cases hd : dec3R op.toNat fn pb pa b a d with
  | ok i => exact decodeTableWord_enc3R h hd
  | error e =>
    obtain ⟨h0, hop, -⟩ := enc3R_fields op fn pb pa b a d
    refine decodeTableWord_long_error h0 ?_ ((decodeLong_enc3R h fn pb pa b a d).trans hd)
    rw [hop]
    rintro rfl
    exact absurd h (by decide)

/-- R76: an instruction with reserved fields is read only where they hold 0. -/
theorem need_toOption (ok : Bool) (i : Instr) : (need ok i).toOption = if ok then some i else none := by
  cases ok <;> rfl

end Sys2Proof

/-! ## Proofs about the lane instructions of family 08 (R38, R150, R153) -/

namespace Sys2Proof.Machine

/-! ### The groups of lanes (R38) -/

/-- R38: the group of a lane is the whole gang, or the half of it that holds the lane. -/
theorem Ctx.group_cases (c : Ctx) {l : Nat} (hl : l < 32) :
    c.groupSize = 32 ∧ c.groupBase l = 0 ∨ c.groupSize = 16 ∧ (c.groupBase l = 0 ∨ c.groupBase l = 16) := by
  have hs : c.groupSize = 16 ∨ c.groupSize = 32 := by
    unfold groupSize
    split
    · exact .inl rfl
    · exact .inr rfl
  unfold groupBase
  obtain h | h := hs <;> rw [h] <;> omega

/-- A lane's group lies within the 32 lanes. -/
theorem Ctx.groupBase_add_lt (c : Ctx) {l i : Nat} (hl : l < 32) (hi : i < c.groupSize) : c.groupBase l + i < 32 := by
  have := c.group_cases hl
  omega

theorem Ctx.groupBase_add_id (c : Ctx) (l : Nat) : c.groupBase l + c.id l = l := Nat.sub_add_cancel (Nat.mod_le ..)

theorem Ctx.id_lt (c : Ctx) {l : Nat} (hl : l < 32) : c.id l < c.groupSize := by
  have := c.group_cases hl
  exact Nat.mod_lt _ (by omega)

theorem Ctx.id_groupBase_add (c : Ctx) {l i : Nat} (hl : l < 32) (hi : i < c.groupSize) : c.id (c.groupBase l + i) = i := by
  unfold id
  obtain ⟨hs, hb⟩ | ⟨hs, hb⟩ := c.group_cases hl <;> rw [hs] at hi ⊢ <;> omega

/-- The lanes of a lane's group are its first lane and the following ones, as many as the group has. -/
theorem Ctx.filter_groupBase (c : Ctx) {l : Nat} (hl : l < 32) :
    (lanes.filter fun m => c.groupBase m == c.groupBase l) = (List.range c.groupSize).map (c.groupBase l + ·) := by
  obtain ⟨hs, hb⟩ | ⟨hs, hb | hb⟩ := c.group_cases hl <;> rw [hb] <;> simp only [groupBase, hs] <;> decide

theorem filter_lanesOf (m : Mask) (p : Nat → Bool) : (lanesOf m).filter p = (lanes.filter p).filter m.getLsbD := by
  rw [lanesOf, List.filter_filter, List.filter_filter]
  exact List.filter_congr fun x _ => Bool.and_comm ..

/-- The lanes of a mask in a lane's group, by their numbers in ascending order. -/
theorem Ctx.groupOf_eq_filter (c : Ctx) (m : Mask) {l : Nat} (hl : l < 32) :
    c.groupOf m l = (List.range c.groupSize).filter fun i => m.getLsbD (c.groupBase l + i) := by
  have hid : ∀ i ∈ (List.range c.groupSize).filter (m.getLsbD ∘ (c.groupBase l + ·)), (c.id ∘ (c.groupBase l + ·)) i = i :=
    fun i hi => c.id_groupBase_add hl (List.mem_range.1 (List.mem_filter.1 hi).1)
  rw [groupOf, filter_lanesOf, c.filter_groupBase hl, List.filter_map, List.map_map, List.map_congr_left hid, List.map_id']
  rfl

/-! ### The lowest of an ascending list -/

/-- The head of an ascending list is a member of it and at most any other. -/
theorem headD_least {ls : List Nat} (hs : ls.Pairwise (· < ·)) (hne : ls ≠ []) : ls.headD 0 ∈ ls ∧ ∀ i ∈ ls, ls.headD 0 ≤ i := by
  cases ls with
  | nil => exact absurd rfl hne
  | cons x xs =>
    refine ⟨List.mem_cons_self, fun i hi => ?_⟩
    obtain rfl | hi := List.mem_cons.1 hi
    · exact Nat.le_refl _
    · exact Nat.le_of_lt (List.rel_of_pairwise_cons hs hi)

/-! ### LKIN (R153) -/

/-- R79: without a predicate, and with no part of the instruction completed, every active lane executes. -/
theorem live_eq_active {s : State} {c : Ctx} (h : s.ctx = some c) (hp : c.pfx.predicate = 0) (hn : c.pfx.negate = false)
    (ho : c.sp.only = 0) : c.live = c.active := by
  refine mask_ext fun l hl => Bool.eq_iff_iff.2 ?_
  have hk : (c.g.kAt c.pfx.predicate.toNat l != c.pfx.negate) = true := by
    rw [hp, hn]
    rfl
  have := lane_iff_predicated h ho l
  simpa only [Ctx.Lane, hl, hk, true_and, and_true] using this

/-- R150: what may stand before an instruction of major opcode 0x1C names no predicate. -/
theorem no_predicate_of_prefixOk_bare {x : Prefix} (h : prefixOk x .bare = true) : x.predicate = 0 ∧ x.negate = false := by
  simp only [prefixOk, Bool.and_eq_true, beq_iff_eq, Bool.not_eq_true'] at h
  obtain ⟨-, ⟨⟨⟨⟨hp, hn⟩, -⟩, -⟩, -⟩, -⟩ := h
  exact ⟨hp, hn⟩

/-- R153: the kin of a lane, by their numbers in its group: the lanes that execute and hold the same word of register r. -/
def Ctx.kin (c : Ctx) (r l : Nat) : List Nat :=
  (List.range c.groupSize).filter fun i => c.live.getLsbD (c.groupBase l + i) && (c.v r .none (c.groupBase l + i) == c.v r .none l)

theorem Ctx.groupOf_same_word (c : Ctx) (r : Nat) {l : Nat} (hl : l < 32) :
    c.groupOf (c.live &&& maskOf fun x => c.v r .none x == c.v r .none l) l = c.kin r l := by
  rw [c.groupOf_eq_filter _ hl]
  refine List.filter_congr fun i hi => ?_
  rw [BitVec.getLsbD_and, getLsbD_maskOf _ _ (c.groupBase_add_lt hl (List.mem_range.1 hi))]

/-- A lane that executes is among its own kin. -/
theorem Ctx.id_mem_kin {c : Ctx} {l : Nat} (r : Nat) (hl : c.Lane l) : c.id l ∈ c.kin r l := by
  refine List.mem_filter.2 ⟨List.mem_range.2 (c.id_lt hl.1), ?_⟩
  rw [c.groupBase_add_id, hl.2, beq_self_eq_true, Bool.and_self]

theorem Ctx.kin_length_le (c : Ctx) (r l : Nat) : (c.kin r l).length ≤ c.groupSize :=
  Nat.le_trans (List.length_filter_le ..) (Nat.le_of_eq List.length_range)

/-- The kin stand in ascending order, so the first of them is the lowest. -/
theorem Ctx.kin_headD_least {c : Ctx} {l : Nat} (r : Nat) (hl : c.Lane l) :
    (c.kin r l).headD 0 ∈ c.kin r l ∧ ∀ i ∈ c.kin r l, (c.kin r l).headD 0 ≤ i :=
  headD_least (List.pairwise_lt_range.filter _) (List.ne_nil_of_mem (Ctx.id_mem_kin r hl))

/-- R153: the word that LKIN writes, its COUNT above its LEADER. -/
def kinWord (kin : List Nat) : Word := BitVec.ofNat 32 (kin.length * 32 + kin.headD 0)

theorem kinWord_fields {kin : List Nat} (hc : kin.length ≤ 32) (hh : kin.headD 0 < 32) :
    (kinWord kin).extractLsb' 11 21 = 0 ∧ ((kinWord kin).extractLsb' 5 6).toNat = kin.length ∧
      ((kinWord kin).extractLsb' 0 5).toNat = kin.headD 0 := by
  have hw : (kinWord kin).toNat = kin.length * 32 + kin.headD 0 := by
    rw [kinWord, BitVec.toNat_ofNat, Nat.mod_eq_of_lt (by omega)]
  refine ⟨BitVec.eq_of_toNat_eq ?_, ?_, ?_⟩ <;> rw [BitVec.extractLsb'_toNat, hw, Nat.shiftRight_eq_div_pow]
  · rw [Nat.div_eq_of_lt (by omega)]
    rfl
  · omega
  · omega

/-- R153: what LKIN does, by the kin of each lane. -/
theorem exec_lkin {s : State} {c : Ctx} {pa : Bool} {a d : Reg} (hc : s.ctx = some c)
    (hr : c.ready { coll := true, srcs := [.v a.toNat 1 pa .none], dsts := [.v d.toNat 1] } = true) :
    ∃ t, exec (.lkin pa a d) s = .next t ∧ c.Completes s t { v := [c.vk d.toNat] } c.past ∧
      ∀ l, c.Lane l → c.HoldsV t d.toNat l (kinWord (c.kin a.toNat l)) := by
  obtain ⟨t, ht, hdone, hv⟩ := issue_writeV hc hr d.toNat fun c l =>
    kinWord (c.groupOf (c.live &&& maskOf fun x => c.v a.toNat .none x == c.v a.toNat .none l) l)
  refine ⟨t, ht, hdone, fun l hl => ?_⟩
  rw [← c.groupOf_same_word a.toNat hl.1]
  exact hv l hl

/-! ### The obligation -/

/-- Settles O2: LKIN writes in each live lane the number of its kin and the lowest of them, which are itself and the other lanes of its group
that execute and hold its word. -/
theorem kinAreCountedAndLed : Obligations.KinAreCountedAndLed := by
  unfold Obligations.KinAreCountedAndLed
  refine ⟨fun pb pa b a d => ?_, fun s c pa a d hc hr => ⟨fun x hx => no_predicate_of_prefixOk_bare hx, live_eq_active hc, ?_⟩⟩
  · refine (decodeTableWord_enc3R_eq (op := 0x1C#7) (by decide) 7#4 pb pa b a d).trans ((need_toOption ..).trans ?_)
    simp only [Bool.and_eq_true, Bool.not_eq_true', beq_iff_eq]
  · obtain ⟨t, ht, hdone, hv⟩ := exec_lkin hc hr
    refine ⟨t, ht, hdone, fun l hl => ⟨_, (c.kin a.toNat l).headD 0, hv l hl, ?_⟩⟩
    have hid := Ctx.id_mem_kin a.toNat hl
    have hlen := c.kin_length_le a.toNat l
    obtain ⟨hmem, hle⟩ := Ctx.kin_headD_least a.toNat hl
    have hsize : c.groupSize ≤ 32 := by
      have := c.group_cases hl.1
      omega
    obtain ⟨hzero, hcount, hleader⟩ := kinWord_fields (Nat.le_trans hlen hsize)
      (Nat.lt_of_le_of_lt (hle _ hid) (Nat.lt_of_lt_of_le (c.id_lt hl.1) hsize))
    exact ⟨hid, hzero, hcount, List.length_pos_of_mem hid, hlen, hleader, hmem, hle⟩

end Sys2Proof.Machine

/-! ## Proofs about decoding: the long words of format X (R75, R91) -/

namespace Sys2Proof

theorem encX_fields (op : BitVec 7) (fn : BitVec 12) (a b : Reg) : let w := encX op fn a b
    w.getLsbD 0 = true ∧ w.extractLsb' 1 7 = op ∧ w.extractLsb' 8 6 = b ∧ w.extractLsb' 14 6 = a ∧ w.extractLsb' 20 12 = fn := by
  simp (disch := decide) only [encX, BitVec.extractLsb'_append_eq_of_le (v := _ + _), BitVec.extractLsb'_append_eq_of_le (v := 12),
    BitVec.extractLsb'_append_eq_of_add_le, BitVec.getLsbD_append (n := _ + _)]
  simp only [Nat.lt_add_one, if_true, BitVec.getLsbD_eq_getElem, BitVec.getElem_one, decide_true, Nat.sub_self,
    BitVec.extractLsb'_eq_self, Nat.add_one_sub_one, Nat.reduceSub, and_self]

/-- R75: the major opcodes from 0x6D on are of format X. -/
theorem decodeLong_encX {op : BitVec 7} (h : 0x6D ≤ op.toNat) (fn : BitVec 12) (a b : Reg) :
    decodeLong (encX op fn a b) = decX op.toNat fn a b := by
  obtain ⟨-, hop, hb, ha, hfn⟩ := encX_fields op fn a b
  simp only [decodeLong, hop, hb, ha, hfn, ge_iff_le, h, decide_true, Bool.or_true, if_true]

/-- A table word of format X stands for what its function code says, and for nothing where that is an error. -/
theorem decodeTableWord_encX {op : BitVec 7} (h : 0x6D ≤ op.toNat) (fn : BitVec 12) (a b : Reg) :
    decodeTableWord 32 (encX op fn a b).toNat = (decX op.toNat fn a b).toOption := by
  obtain ⟨h0, hop, -⟩ := encX_fields op fn a b
  have hp : (encX op fn a b).extractLsb' 1 7 ≠ 0x3F#7 := by
    rw [hop]
    rintro rfl
    exact absurd h (by decide)
  have hl := decodeLong_encX h fn a b
  cases hd : decX op.toNat fn a b with
  | ok i => exact decodeTableWord_long h0 hp (hl.trans hd)
  | error e => exact decodeTableWord_long_error h0 hp (hl.trans hd)

/-- R91: a queue instruction's function code holds its word number, its queue and its subop. -/
theorem queueFn_fields (w q : BitVec 2) (sub : BitVec 8) : let fn := w ++ q ++ sub
    fn.extractLsb' 0 8 = sub ∧ fn.extractLsb' 8 2 = q ∧ fn.extractLsb' 10 2 = w := by
  simp (disch := decide) only [BitVec.extractLsb'_append_eq_of_le (v := _ + _), BitVec.extractLsb'_append_eq_of_le (v := 2),
    BitVec.extractLsb'_append_eq_of_add_le]
  simp only [Nat.sub_self, BitVec.extractLsb'_eq_self, Nat.reduceSub, and_self]

/-- R91: a table word of major opcode 0x71 stands for what its subop says. -/
theorem decodeTableWord_queue (w q : BitVec 2) (sub : BitVec 8) (a b : Reg) :
    decodeTableWord 32 (encX 0x71#7 (w ++ q ++ sub) a b).toNat = (dec71sub sub.toNat w q a b).toOption := by
  obtain ⟨hsub, hq, hw⟩ := queueFn_fields w q sub
  refine (decodeTableWord_encX (by decide) _ a b).trans (congrArg Except.toOption ?_)
  show dec71sub ((w ++ q ++ sub).extractLsb' 0 8).toNat _ _ a b = _
  rw [hsub, hq, hw]

end Sys2Proof

/-! ## Proofs about the queue instructions of family 15 (R299, R303) -/

namespace Sys2Proof.Machine

/-! ### An instruction that changes one queue of its gang -/

theorem State.gang_setQueue (s : State) (gid n : Nat) (f : QReg → QReg) (k : Nat) : (s.setQueue gid n f).gang k =
    if k = gid then (s.gang gid).map fun g => { g with q := put QReg.empty g.q n (f (g.queue n)) } else s.gang k :=
  look_modify ..

/-- The queue registers of the gang under c once f has changed queue n. -/
def Ctx.queuesWith (c : Ctx) (n : Nat) (f : QReg → QReg) : Store QReg := put QReg.empty c.g.q n (f (c.g.queue n))

@[simp] theorem Ctx.queuesWith_same (c : Ctx) (n : Nat) (f : QReg → QReg) : lookD QReg.empty (c.queuesWith n f) n = f (c.g.queue n) :=
  lookD_put_same ..

theorem Ctx.queuesWith_other (c : Ctx) {n k : Nat} (f : QReg → QReg) (hk : k ≠ n) :
    lookD QReg.empty (c.queuesWith n f) k = c.g.queue k := by
  rw [queuesWith, lookD_put, if_neg hk, Gang.queue]

/-- R63: an instruction whose body changes one queue of its gang completes, and the gang keeps all but that queue. -/
theorem issue_setQueue {s : State} {c : Ctx} {n : Needs} (h : s.ctx = some c) (hr : c.ready n = true) (q : Nat) (f : Ctx → QReg → QReg) :
    ∃ t, issue s n (fun c => .done (c.s.setQueue c.gid q (f c)) []) = .next t ∧
      (c.withQ (c.queuesWith q (f c))).Completes s t {} c.past := by
  obtain ⟨hs, -, -, hg, hsp, -⟩ := State.ctx_spec h
  refine ⟨_, issue_ready h hr _, ?_⟩
  rw [hs]
  refine (completes_done (c := c.withQ (c.queuesWith q (f c))) hsp rfl (fun k hk => ?_) ?_ (.refl ..) rfl rfl rfl).1
  · exact (s.gang_setQueue ..).trans (if_neg hk)
  · exact (s.gang_setQueue ..).trans ((if_pos rfl).trans (congrArg _ hg))

/-! ### QW (R299) -/

/-- R299: queue register x with a word of its staging area written. -/
def QReg.stage (x : QReg) (w : BitVec 2) (value : BitVec 64) : QReg :=
  { x with words := put 0 x.words w.toNat value, written := x.written ||| 1#4 <<< w.toNat }

theorem exec_qw (w q : BitVec 2) (a : Reg) (s : State) :
    exec (.qw w q a) s = issue s { wf := q != 3 && even a, srcs := [.s a.toNat 2 false] } fun c =>
      .done (c.s.setQueue c.gid q.toNat fun x => x.stage w (c.sv (a.toNat + 1) ++ c.sv a.toNat)) [] := rfl

/-- A word appended above another counts 2^32 times. -/
theorem toNat_append_words (hi lo : Word) : (hi ++ lo).toNat = lo.toNat + 2 ^ 32 * hi.toNat := by
  rw [BitVec.toNat_append, ← Nat.shiftLeft_add_eq_or_of_lt lo.isLt, Nat.shiftLeft_eq, Nat.add_comm, Nat.mul_comm]

/-! ### QSTAT (R303) -/

/-- R303: the word that QSTAT writes, by its fields RECORDS, RUNNING and WRITTEN. -/
def queueStatus (records going : Nat) (written : BitVec 4) : Word := BitVec.ofNat 32 (records * 65536 + going * 256 + written.toNat)

theorem queueStatus_fields {records going : Nat} (hr : records ≤ 16) (hg : going ≤ 16) (written : BitVec 4) :
    let v := queueStatus records going written
    (v.extractLsb' 16 5).toNat = records ∧ (v.extractLsb' 8 5).toNat = going ∧ v.extractLsb' 0 4 = written ∧ v.extractLsb' 21 11 = 0 ∧
      v.extractLsb' 13 3 = 0 ∧ v.extractLsb' 4 4 = 0 := by
  have hw := written.isLt
  have hv : (queueStatus records going written).toNat = records * 65536 + going * 256 + written.toNat := by
    rw [queueStatus, BitVec.toNat_ofNat, Nat.mod_eq_of_lt (by omega)]
  have hz : (0 : BitVec 11).toNat = 0 ∧ (0 : BitVec 3).toNat = 0 ∧ (0 : BitVec 4).toNat = 0 := ⟨rfl, rfl, rfl⟩
  refine ⟨?_, ?_, BitVec.eq_of_toNat_eq ?_, BitVec.eq_of_toNat_eq ?_, BitVec.eq_of_toNat_eq ?_, BitVec.eq_of_toNat_eq ?_⟩ <;>
    rw [BitVec.extractLsb'_toNat, hv, Nat.shiftRight_eq_div_pow] <;> omega

/-- With no record and no written word, the status is the one count in its field. -/
theorem queueStatus_going (going : Nat) : queueStatus 0 going 0 = BitVec.ofNat 32 (going * 256) := by
  rw [queueStatus, Nat.zero_mul, Nat.zero_add, show (0 : BitVec 4).toNat = 0 from rfl, Nat.add_zero]

/-- R303: what QSTAT writes: the counts and the mask of a queue of commands, and for q3 the messages of the outbound queue alone. -/
theorem exec_qstat {s : State} {c : Ctx} {b : Reg} (h : s.ctx = some c) (hr : c.ready { dsts := [.s b.toNat 1] } = true) (q : BitVec 2) :
    ∃ t, exec (.qstat q b) s = .next t ∧ c.Completes s t { s := [c.sk b.toNat] } c.past ∧ c.HoldsS t b.toNat (queueStatus
      (if q = 3 then 0 else (c.g.queue q.toNat).results.length)
      (if q = 3 then (s.core c.core).outbound.length else (s.running c.gid q.toNat).length)
      (if q = 3 then 0 else (c.g.queue q.toNat).written)) := by
  obtain ⟨hs, -⟩ := State.ctx_spec h
  obtain ⟨t, ht, hdone, hv⟩ := issue_writeS h hr b.toNat fun c => if q == 3
    then BitVec.ofNat 32 ((c.s.core c.core).outbound.length * 256)
    else queueStatus (c.g.queue q.toNat).results.length (c.s.running c.gid q.toNat).length (c.g.queue q.toNat).written
  refine ⟨t, ht, hdone, ?_⟩
  rw [hs] at hv
  by_cases hq : q = 3
  · simpa only [hq, beq_self_eq_true, if_true, queueStatus_going] using hv
  · simpa only [hq, beq_iff_eq, if_false] using hv

/-! ### The obligations -/

/-- Settles O28: QW writes one word of its queue's staging area and its bit of the written mask, and its gang keeps all else. -/
theorem queueWordWrites : Obligations.QueueWordWrites := by
  unfold Obligations.QueueWordWrites
  refine ⟨fun w q a b => ?_, fun s c w q a hc hr => ?_⟩
  · refine (decodeTableWord_queue w q 0#8 a b).trans ((need_toOption ..).trans ?_)
    simp only [beq_iff_eq]
  · obtain ⟨t, ht, hdone⟩ := issue_setQueue hc hr q.toNat fun c x => x.stage w (c.sv (a.toNat + 1) ++ c.sv a.toNat)
    refine ⟨t, _, (exec_qw w q a s).trans ht, hdone, fun k hk => c.queuesWith_other _ hk, ?_⟩
    rw [c.queuesWith_same]
    refine ⟨rfl, rfl, ?_, fun i hi => ?_⟩
    · rw [QReg.stage, lookD_put_same, toNat_append_words]
    · rw [QReg.stage, lookD_put, if_neg hi]

/-- Settles O30: QSTAT writes one s register, and its gang keeps its queues: the counts and the mask stand in their fields, with 0 in the
other bits, whenever no count exceeds the 16 entries of a queue. -/
theorem queueCountsAreReported : Obligations.QueueCountsAreReported := by
  unfold Obligations.QueueCountsAreReported
  refine ⟨fun w q a b => ?_, fun s c q b hc hr hrecords hgoing => ?_⟩
  · refine (decodeTableWord_queue w q 0x04#8 a b).trans ((need_toOption ..).trans ?_)
    simp only [Bool.and_eq_true, beq_iff_eq]
  · obtain ⟨t, ht, hdone, hv⟩ := exec_qstat hc hr q
    exact ⟨t, _, ht, hdone, hv, queueStatus_fields hrecords hgoing _⟩

end Sys2Proof.Machine
